-- ==== Sys2Proof/Word.lean ====
section
/-! DEFINITION. The plain values every layer uses: bytes, device time, line levels, and the update of one place of a fixed table. -/

namespace Sys2Proof

/-- A byte on the wire of a host port. -/
abbrev Byte := BitVec 8

/-- Device time: a count of 100 ns ticks modulo 2^48 (R22). -/
abbrev Time := BitVec 48

/-- The level of a line, raw or accepted (section 0.6). -/
inductive Level where
  | low
  | high
  deriving DecidableEq, Repr

/-- The opposite level. -/
def Level.flip : Level → Level
  | .low => .high
  | .high => .low

/-- A fixed table with the record at place `i` replaced. -/
def upd {α : Type} {n : Nat} (t : Vector α n) (i : Fin n) (x : α) : Vector α n :=
  t.set i.1 x i.2

end Sys2Proof
end

