-- ==== Sys2Proof/Config.lean ====
section
/-! DEFINITION. The sizes and ranges of Table 0.2 that the rules name, and the one free value the model draws. -/

namespace Sys2Proof.Config

/-- Ticks of device time in one millisecond (section 0.5.2). -/
def ticksPerMs : Nat := 10000

/-- Ticks of device time in one microsecond (section 0.5.2). -/
def ticksPerUs : Nat := 10

/-- The filter depth of the quiet-window and capture inputs (R5, R120). -/
def gateDepth : Nat := 3

/-- Least turns of a position (section 0.5.1). -/
def turnsMin : Int := -8388608

/-- Greatest turns of a position (section 0.5.1). -/
def turnsMax : Int := 8388607

/-- Greatest ratchet debt (R13). -/
def debtMax : Nat := 65535

/-- Greatest last interval, at which it saturates (R36). -/
def intervalMax : Nat := 4294967295

/-- Greatest fault count, at which it saturates (R40). -/
def faultCountMax : Nat := 255

/-- Ends of the since-index distance, at which it saturates (R60). -/
def sinceMin : Int := -2147483648

/-- Ends of the since-index distance, at which it saturates (R60). -/
def sinceMax : Int := 2147483647

/-- Entries each port may always hold (Table 5.1). -/
def poolReserve : Nat := 8

/-- Entries beyond the reserves, summed over the ports (Table 5.1). -/
def poolShared : Nat := 40

/-- One past the last booking serial (R86). -/
def serialEnd : Nat := 4294967296

/-- Greatest fire count, at which it saturates (R105). -/
def fireCountMax : Nat := 65535

/-- Repeats value that means unlimited (Table 5.2). -/
def repeatsUnlimited : Nat := 65535

/-- Slots whose reader sets may include one port (R123). -/
def holdLimit : Nat := 8

/-- The next capture number at which the Capture Unit is exhausted (R124). -/
def captureEnd : Nat := 281474976710656

/-- Requests plus responses that may wait at one port (R150). -/
def queueRoom : Nat := 8

/-- Saturation of a notice's count (R165). -/
def noticeCountMax : Nat := 255

/-- FREE VALUE. The rank by which several expiries that are due at one tick, and that the sender has not ordered, are
taken at the end of that tick: drawn number `draw`, timer number `timer` (axes 0 to 3 are timers 0 to 3, claim subjects
4 to 15, lines 16 to 23). The spec gives timers of different blocks no order (R39, R74, R112); nothing here says which
order it is (entry 7). -/
opaque expiryRank (draw timer : Nat) : Nat

/-- FREE VALUE. Whether a port at which a notice waits at its first fall after device reset sends an IDLE frame first, as R160
and R174 say, and not that notice, as R142 and R166 say. The spec says both and rules for neither (entry 17). -/
opaque firstFrameIdle : Bool

/-- FREE VALUE. Whether the ALERT flag is set in such an IDLE frame, as R170 says, and STATUS is not the 0x48 of R174 (entry
17). -/
opaque firstFrameAlert : Bool

end Sys2Proof.Config
end

