-- ==== Sys2Proof/Syntax.lean ====
section
/-! DEFINITION. The names of the block's parts, the enumerated values of Table 10.4, and its commands: one constructor of `Instr`
for each row of spec/opcode_table.json. -/

namespace Sys2Proof

/-- Axes 0 to 3. -/
abbrev AxisId := Fin 4
/-- Host ports P0 to P2. -/
abbrev PortId := Fin 3
/-- Trigger lines TRG0 to TRG7. -/
abbrev LineId := Fin 8
/-- Slots of the compare pool, 0 to 63 (Table 5.1). -/
abbrev SlotId := Fin 64
/-- Capture inputs CAP0 and CAP1. -/
abbrev CapId := Fin 2
/-- Quiet-window inputs QW0 and QW1. -/
abbrev WindowId := Fin 2
/-- A set of ports: bit 0 P0, bit 1 P1, bit 2 P2 (Table 10.3). -/
abbrev PortMask := BitVec 3

/-- A claim subject (Table 4.1). -/
inductive Subject where
  | axis (a : AxisId)
  | line (l : LineId)
  deriving DecidableEq, Repr

/-- An input filtered at every CLKIN period with depth 3 (R5, R120). -/
inductive GateInput where
  | qw (w : WindowId)
  | cap (c : CapId)
  deriving DecidableEq, Repr

/-- The first or the second CLKIN period of a tick of device time: each tick spans two (R22). -/
inductive ClkPhase where
  | first
  | second
  deriving DecidableEq, Repr

/-- Axis mode (Table 2.1). -/
inductive Mode where
  | off | quad | quadIndex | hall3 | stepDir
  deriving DecidableEq, Repr

/-- Quiet window selection (Table 1.1). -/
inductive QuietWindow where
  | none | qw0 | qw1
  deriving DecidableEq, Repr

/-- Direction policy (Table 2.1). -/
inductive DirPolicy where
  | any | fwdOnly | revOnly
  deriving DecidableEq, Repr

/-- Index polarity (Table 2.1). -/
inductive Polarity where
  | activeHigh | activeLow
  deriving DecidableEq, Repr

/-- Correction mode (Table 2.1). -/
inductive Correction where
  | snap | check
  deriving DecidableEq, Repr

/-- Run state of an axis (section 2.3). -/
inductive RunState where
  | disabled | counting
  deriving DecidableEq, Repr

/-- Direction of a raw step: forward is toward larger absolute positions (section 0.5.1). -/
inductive Dir where
  | forward | reverse
  deriving DecidableEq, Repr

/-- Last direction of an axis (Table 2.5). -/
inductive LastDir where
  | none | forward | reverse
  deriving DecidableEq, Repr

/-- Motion of an axis (Table 2.5). -/
inductive Motion where
  | stopped | forward | reverse
  deriving DecidableEq, Repr

/-- Timing run of an axis (R36). -/
inductive TimingRun where
  | opened | closed
  deriving DecidableEq, Repr

/-- Reference state of an axis (Table 3.2). -/
inductive RefState where
  | unreferenced | seeking | referenced | suspect | lost
  deriving DecidableEq, Repr

/-- The seven fault kinds (section 1.10). -/
inductive FaultKind where
  | quadSkip | hallSkip | ratchetOverflow | hallCode | turnRange | indexDrift | indexMissing
  deriving DecidableEq, Repr

/-- Qualifier of a compare entry (Table 5.2). -/
inductive Qualifier where
  | fwd | rev | either
  deriving DecidableEq, Repr

/-- The action codes BOOK carries (section 5.4). -/
inductive ActionKind where
  | noticeOnly | pulse | setActive | setIdle | toggle | capture
  deriving DecidableEq, Repr

/-- State of a compare entry (R82). -/
inductive EntryState where
  | held | armed
  deriving DecidableEq, Repr

/-- The drives of DRIVE_LINE (R115). -/
inductive Drive where
  | active | idle | pulse
  deriving DecidableEq, Repr

/-- Edge subscription of a port for one capture input (Table 7.1). -/
inductive Edges where
  | none | rising | falling | both
  deriving DecidableEq, Repr

/-- Cause class of a snapshot (section 7.2). -/
inductive CauseClass where
  | host | cap0 | cap1 | compare
  deriving DecidableEq, Repr

/-- Reason of SNAPSHOT_SKIPPED (R127, R128). -/
inductive SkipReason where
  | holdLimit | tableFull
  deriving DecidableEq, Repr

/-- Result codes (Table 10.7). -/
inductive ResultCode where
  | ok | frameError | unknownCommand | badArgument | notHolder | heldByOther | wrongState | poolFull | tableFull
  | holdLimit | notFound | staleHandle | notReader | exhausted
  deriving DecidableEq, Repr

/-- Detail of FRAME_ERROR (Table 8.2). -/
inductive FrameDetail where
  | truncated | length | crc
  deriving DecidableEq, Repr

/-- KIND of a device frame (Table 10.4). -/
inductive FrameKind where
  | idle | response | notice
  deriving DecidableEq, Repr

/-- Notice kinds (Table 9.1). -/
inductive NoticeKind where
  | compareFired | entriesCancelled | referenceChanged | axisFault | motionChanged | claimLost | snapshotReady
  | snapshotSkipped
  deriving DecidableEq, Repr

/-- The thirty commands a request frame's CMD byte can name. -/
inductive Cmd where
  | nop | portStatus | portReset | repeatFrame | subscribe | readTime
  | setAxisConfig | startAxis | stopAxis | readAxis | clearFaults
  | armReference | setReference | dropReference
  | claim | release | readClaims
  | book | cancel | cancelAxis | readEntry | listEntries
  | driveLine | readLines
  | snap | subscribeCapture | readSnapshot | readOldest | releaseSnapshot | listHeld
  deriving DecidableEq, Repr

/-- A compare entry's name: its slot and that slot's generation (section 5.2). -/
structure Handle where
  slot : SlotId
  gen : Byte
  deriving DecidableEq, Repr

/-- A position turns:count (section 0.5.1). -/
structure Position where
  turns : Int
  count : Nat
  deriving DecidableEq, Repr

/-- Axis configuration record (Table 2.1). -/
structure AxisConfig where
  mode : Mode
  cpr : Nat
  /-- sample divider k -/
  divider : Nat
  /-- filter depth, in samples -/
  depth : Nat
  window : QuietWindow
  policy : DirPolicy
  polarity : Polarity
  tolerance : Nat
  correction : Correction
  /-- stall timeout in ms, 0 meaning off -/
  stallMs : Nat
  deriving DecidableEq, Repr

/-- What may be taken while a sample is under way (R104, R129; entry 18). `late` names the axes with a sample under
way that a capture reads after all four stages of that sample; it reads the others as they were before theirs (R126). -/
inductive Between where
  /-- the filter of a capture input runs, and an accepted edge takes its capture -/
  | edge (c : CapId) (raw : Level) (late : List AxisId)
  /-- a SNAP is taken from the head of a port's request queue -/
  | snap (p : PortId) (late : List AxisId)
  /-- a sample of another axis, of the same CLKIN period, begins -/
  | start (b : AxisId) (rawA rawB rawZ : Level)
  /-- the sample of axis `b`, which is under way, makes its next part -/
  | go (b : AxisId) (late : List AxisId)
  deriving DecidableEq, Repr

/-- The course of a sample: the half of the tick in which it is taken, and what is taken between its parts: nothing, or captures of
other causes and samples of other axes (R129; entry 18). -/
structure SampleCourse where
  half : ClkPhase
  between : List Between
  deriving DecidableEq, Repr

/-- The taking of a request whose effect depends on the CLKIN period it is taken in: the port, and the half of the tick (R1;
entry 16). -/
structure Taking where
  port : PortId
  half : ClkPhase
  deriving DecidableEq, Repr

/-- The commands of the block, one constructor for each row of spec/opcode_table.json. The request commands carry their
port: the request taken, with its tag and its argument bytes, is the one at the head of that port's request queue (R153). -/
inductive Instr where
  /-- DEVICE_RESET: RST_N low and high again; `csLow` are the ports whose CS_N is low when it ends (R22, R160). -/
  | deviceReset (csLow : PortMask)
  /-- SAMPLE_TAKEN: one sample of axis `a`, with its course and the raw levels of its three lines (R15). -/
  | sampleTaken (a : AxisId) (course : SampleCourse) (rawA rawB rawZ : Level)
  /-- QUIET_WINDOW_CHANGE: the filter of QW0 or QW1 meets the raw level that completes a change (R5). -/
  | quietWindowChange (w : WindowId) (raw : Level)
  /-- CAPTURE_EDGE: the filter of CAP0 or CAP1 meets the raw level that completes an edge (R121). -/
  | captureEdge (c : CapId) (raw : Level)
  /-- STALL_EXPIRY (R38). -/
  | stallExpiry (a : AxisId)
  /-- LEASE_EXPIRY (R73). -/
  | leaseExpiry (subj : Subject)
  /-- PULSE_END (R111). -/
  | pulseEnd (l : LineId)
  /-- CS_N_FALL (R142). -/
  | csNFall (p : PortId)
  /-- CS_N_RISE: `sdi` are the bits sampled on SDI while CS_N was low, first bit first (R141, R146). -/
  | csNRise (p : PortId) (sdi : List Bool)
  /-- FRAME_ERROR: a damaged-frame entry at the head of the request queue is taken (R153). -/
  | frameError (p : PortId)
  /-- UNKNOWN_COMMAND: a request whose CMD names no command is taken (R153). -/
  | unknownCommand (p : PortId)
  /-- NOP (R155). -/
  | nop (p : PortId)
  /-- PORT_STATUS (R156). -/
  | portStatus (p : PortId)
  /-- PORT_RESET (R158). -/
  | portReset (p : PortId)
  /-- REPEAT_FRAME (R157). -/
  | repeatFrame (p : PortId)
  /-- SUBSCRIBE (R162). -/
  | subscribe (p : PortId)
  /-- READ_TIME (R24). -/
  | readTime (p : PortId)
  /-- SET_AXIS_CONFIG (R28). -/
  | setAxisConfig (taking : Taking)
  /-- START_AXIS (R31). -/
  | startAxis (p : PortId)
  /-- STOP_AXIS (R32). -/
  | stopAxis (p : PortId)
  /-- READ_AXIS (R42). -/
  | readAxis (p : PortId)
  /-- CLEAR_FAULTS (R41). -/
  | clearFaults (p : PortId)
  /-- ARM_REFERENCE (R48). -/
  | armReference (p : PortId)
  /-- SET_REFERENCE (R50). -/
  | setReference (p : PortId)
  /-- DROP_REFERENCE (R51). -/
  | dropReference (p : PortId)
  /-- CLAIM (R66). -/
  | claim (p : PortId)
  /-- RELEASE (R70). -/
  | release (p : PortId)
  /-- READ_CLAIMS (R77). -/
  | readClaims (p : PortId)
  /-- BOOK (R89). -/
  | book (p : PortId)
  /-- CANCEL (R91). -/
  | cancel (p : PortId)
  /-- CANCEL_AXIS (R93). -/
  | cancelAxis (p : PortId)
  /-- READ_ENTRY (R94). -/
  | readEntry (p : PortId)
  /-- LIST_ENTRIES (R95). -/
  | listEntries (p : PortId)
  /-- DRIVE_LINE (R115). -/
  | driveLine (p : PortId)
  /-- READ_LINES (R116). -/
  | readLines (p : PortId)
  /-- SNAP (R130). -/
  | snap (p : PortId)
  /-- SUBSCRIBE_CAPTURE (R122). -/
  | subscribeCapture (p : PortId)
  /-- READ_SNAPSHOT (R132). -/
  | readSnapshot (p : PortId)
  /-- READ_OLDEST (R133). -/
  | readOldest (p : PortId)
  /-- RELEASE_SNAPSHOT (R134). -/
  | releaseSnapshot (p : PortId)
  /-- LIST_HELD (R136). -/
  | listHeld (p : PortId)
  /-- DEVICE_TIME_TICK (R22). -/
  | deviceTimeTick
  /-- INPUT_FILTER_RUN: the filter of one of QW0, QW1, CAP0, CAP1 at one CLKIN period (R120, R5). -/
  | inputFilterRun (g : GateInput) (raw : Level)
  deriving DecidableEq, Repr

end Sys2Proof
end

