-- ==== Sys2Proof/WellFormed.lean ====
section
/-! DEFINITION. What the types of Syntax.lean leave to be checked. The operands of a command are of types that hold exactly the
values the rules give them, so every term of `Instr` is well formed; a configuration record, a position and a lease are not. -/

namespace Sys2Proof

/-- Every operand of every command is of a type that admits exactly the values the rules name. -/
def Instr.wellFormed (_ : Instr) : Bool := true

/-- A configuration record in the ranges of Table 2.1 that also meets the joint conditions of R27. -/
def AxisConfig.wellFormed (c : AxisConfig) : Bool :=
  decide (2 ≤ c.cpr ∧ c.cpr ≤ 1048576) && decide (c.divider ≤ 7) && decide (1 ≤ c.depth ∧ c.depth ≤ 16)
    && decide (2 * c.tolerance < c.cpr) && (decide (c.mode ≠ .quadIndex) || decide (c.policy = .any))

/-- A position in the range of section 0.5.1 under the given CPR. -/
def Position.wellFormed (cpr : Nat) (p : Position) : Bool :=
  decide (p.count < cpr) && decide (Config.turnsMin ≤ p.turns) && decide (p.turns ≤ Config.turnsMax)

/-- A lease that CLAIM accepts: 0, or 10 to 60,000 ms (R66). -/
def leaseWellFormed (ms : Nat) : Bool :=
  decide (ms = 0) || (decide (10 ≤ ms) && decide (ms ≤ 60000))

end Sys2Proof
end

