-- ==== Sys2Proof/Decode.lean ====
section
/-! DEFINITION. From bits to commands: the bytes of an exchange, the CRC, the judgement of a request frame (R149), the command
codes, and the form check of the arguments (R173). spec/opcode_table.json gives no row any bits, so `decodeTableWord`
answers none for every word. -/

namespace Sys2Proof

/-- spec/opcode_table.json gives bits to no row, so no word spells a command. -/
def decodeTableWord (_nbits _w : Nat) : Option Instr := none

/-! ### Bytes -/

/-- One byte from eight bits, most significant first (R141). -/
def byteOfBits (b7 b6 b5 b4 b3 b2 b1 b0 : Bool) : Byte :=
  BitVec.ofNat 8 (b7.toNat * 128 + b6.toNat * 64 + b5.toNat * 32 + b4.toNat * 16 + b3.toNat * 8 + b2.toNat * 4
    + b1.toNat * 2 + b0.toNat)

/-- The whole bytes of a bit stream, most significant bit first; the bits of an incomplete byte are discarded (R141). -/
def bytesOfBits : List Bool → List Byte
  | b7 :: b6 :: b5 :: b4 :: b3 :: b2 :: b1 :: b0 :: rest => byteOfBits b7 b6 b5 b4 b3 b2 b1 b0 :: bytesOfBits rest
  | _ => []

/-- The bits of one byte in the order they travel (R141). -/
def bitsOfByte (b : Byte) : List Bool :=
  [b.getLsbD 7, b.getLsbD 6, b.getLsbD 5, b.getLsbD 4, b.getLsbD 3, b.getLsbD 2, b.getLsbD 1, b.getLsbD 0]

/-- The bits of a run of bytes in the order they travel (R141). -/
def bitsOfBytes : List Byte → List Bool
  | [] => []
  | b :: bs => bitsOfByte b ++ bitsOfBytes bs

/-- An unsigned field, most significant byte first (R173). -/
def beNat (bs : List Byte) : Nat := bs.foldl (fun n b => n * 256 + b.toNat) 0

/-- A two's complement field, most significant byte first (R173). -/
def beInt (bs : List Byte) : Int :=
  if 2 * beNat bs < 256 ^ bs.length then (beNat bs : Int) else (beNat bs : Int) - (256 ^ bs.length : Nat)

/-! ### CRC-8 (R175) -/

/-- One shift of the CRC register: 0x07 is combined in when the bit leaving the top was 1. -/
def crcShift (r : Byte) : Byte := if r.getLsbD 7 then (r <<< 1) ^^^ 0x07#8 else r <<< 1

/-- One byte combined into the CRC register. -/
def crcByte (r b : Byte) : Byte :=
  crcShift (crcShift (crcShift (crcShift (crcShift (crcShift (crcShift (crcShift (r ^^^ b))))))))

/-- The CRC-8 of a run of bytes: initial value 0xFF, no final inversion. -/
def crc8 (bs : List Byte) : Byte := bs.foldl crcByte 0xFF#8

/-! ### Judging a request frame -/

/-- The outcome of Table 8.2. -/
inductive Judgement where
  /-- step 1: no request -/
  | none
  /-- steps 2 to 4: a damaged frame with its detail and tag -/
  | damaged (detail : FrameDetail) (tag : Byte)
  /-- step 5: a well-formed request -/
  | request (tag cmd : Byte) (args : List Byte)
  deriving DecidableEq, Repr

/-- Judge the bytes received in an exchange by the steps of Table 8.2, in order (R149). -/
def judgeRequest : List Byte → Judgement
  | [] => .none
  | len :: rest =>
    if len = 0 then .none
    else if len = 1 ∨ 38 < len.toNat then .damaged .length (rest.headD 0)
    else if rest.length < len.toNat + 1 then .damaged .truncated 0
    else if crc8 (len :: rest.take len.toNat) ≠ rest.getD len.toNat 0 then .damaged .crc (rest.headD 0)
    else .request (rest.headD 0) (rest.getD 1 0) ((rest.take len.toNat).drop 2)

/-! ### Command codes -/

/-- The one-byte code of each command, given where the command is specified. -/
def Cmd.code : Cmd → Byte
  | .nop => 0x01
  | .portStatus => 0x02
  | .portReset => 0x03
  | .repeatFrame => 0x04
  | .subscribe => 0x05
  | .readTime => 0x06
  | .setAxisConfig => 0x10
  | .startAxis => 0x11
  | .stopAxis => 0x12
  | .readAxis => 0x13
  | .clearFaults => 0x14
  | .armReference => 0x18
  | .setReference => 0x19
  | .dropReference => 0x1A
  | .claim => 0x20
  | .release => 0x21
  | .readClaims => 0x22
  | .book => 0x30
  | .cancel => 0x31
  | .cancelAxis => 0x32
  | .readEntry => 0x33
  | .listEntries => 0x34
  | .driveLine => 0x38
  | .readLines => 0x39
  | .snap => 0x40
  | .subscribeCapture => 0x41
  | .readSnapshot => 0x42
  | .readOldest => 0x43
  | .releaseSnapshot => 0x44
  | .listHeld => 0x45

/-- Every command, in the order of its code. -/
def Cmd.all : List Cmd :=
  [.nop, .portStatus, .portReset, .repeatFrame, .subscribe, .readTime, .setAxisConfig, .startAxis, .stopAxis, .readAxis,
    .clearFaults, .armReference, .setReference, .dropReference, .claim, .release, .readClaims, .book, .cancel, .cancelAxis,
    .readEntry, .listEntries, .driveLine, .readLines, .snap, .subscribeCapture, .readSnapshot, .readOldest,
    .releaseSnapshot, .listHeld]

/-- The command a CMD byte names, if any (R153). -/
def Cmd.ofCode (b : Byte) : Option Cmd := Cmd.all.find? (fun c => decide (c.code = b))

/-! ### Field types of Table 10.3 and enumerated values of Table 10.4 -/

/-- An axis byte: 0 to 3. -/
def axisOfByte (b : Byte) : Option AxisId := if h : b.toNat < 4 then some ⟨b.toNat, h⟩ else none

/-- A line byte: 0 to 7. -/
def lineOfByte (b : Byte) : Option LineId := if h : b.toNat < 8 then some ⟨b.toNat, h⟩ else none

/-- A slot byte of a handle: 0 to 63. -/
def slotOfByte (b : Byte) : Option SlotId := if h : b.toNat < 64 then some ⟨b.toNat, h⟩ else none

/-- A claim subject byte: axes 0x00 to 0x03, lines 0x10 to 0x17. -/
def subjectOfByte (b : Byte) : Option Subject :=
  if h : b.toNat < 4 then some (.axis ⟨b.toNat, h⟩)
  else if h : 16 ≤ b.toNat ∧ b.toNat < 24 then some (.line ⟨b.toNat - 16, by omega⟩)
  else none

/-- A port mask byte: bits 3 to 7 are zero. -/
def portMaskOfByte (b : Byte) : Option PortMask := if b.toNat < 8 then some (BitVec.ofNat 3 b.toNat) else none

/-- A subscription mask of two bytes: bits 12 to 15 are zero. -/
def subscriptionOfBytes (hi lo : Byte) : Option (BitVec 12) :=
  if beNat [hi, lo] < 4096 then some (BitVec.ofNat 12 (beNat [hi, lo])) else none

/-- The value of an enumerated byte: the member of the list at that number (Table 10.4). -/
def enumOfByte {α : Type} (values : List α) (b : Byte) : Option α := values[b.toNat]?

/-- OFF 0, QUAD 1, QUAD_INDEX 2, HALL3 3, STEP_DIR 4. -/
def modeOfByte : Byte → Option Mode := enumOfByte [.off, .quad, .quadIndex, .hall3, .stepDir]

/-- NONE 0, QW0 1, QW1 2. -/
def windowOfByte : Byte → Option QuietWindow := enumOfByte [.none, .qw0, .qw1]

/-- ANY 0, FWD_ONLY 1, REV_ONLY 2. -/
def policyOfByte : Byte → Option DirPolicy := enumOfByte [.any, .fwdOnly, .revOnly]

/-- ACTIVE_HIGH 0, ACTIVE_LOW 1. -/
def polarityOfByte : Byte → Option Polarity := enumOfByte [.activeHigh, .activeLow]

/-- SNAP 0, CHECK 1. -/
def correctionOfByte : Byte → Option Correction := enumOfByte [.snap, .check]

/-- LOW 0, HIGH 1. -/
def levelOfByte : Byte → Option Level := enumOfByte [.low, .high]

/-- FWD 0, REV 1, EITHER 2. -/
def qualifierOfByte : Byte → Option Qualifier := enumOfByte [.fwd, .rev, .either]

/-- NOTICE_ONLY 0, PULSE 1, SET_ACTIVE 2, SET_IDLE 3, TOGGLE 4, CAPTURE 5. -/
def actionOfByte : Byte → Option ActionKind :=
  enumOfByte [.noticeOnly, .pulse, .setActive, .setIdle, .toggle, .capture]

/-- no 0, yes 1. -/
def yesNoOfByte : Byte → Option Bool := enumOfByte [false, true]

/-- ACTIVE 0, IDLE 1, PULSE 2. -/
def driveOfByte : Byte → Option Drive := enumOfByte [.active, .idle, .pulse]

/-- CAP0 0, CAP1 1. -/
def capOfByte : Byte → Option CapId := enumOfByte [0, 1]

/-- NONE 0, RISING 1, FALLING 2, BOTH 3. -/
def edgesOfByte : Byte → Option Edges := enumOfByte [.none, .rising, .falling, .both]

/-! ### Arguments of each command: the form check of R173 -/

/-- No argument bytes. -/
def parseNothing : List Byte → Option Unit
  | [] => some ()
  | _ => none

/-- One byte of any value (REPEAT_FRAME). -/
def parseByte : List Byte → Option Byte
  | [b] => some b
  | _ => none

/-- One axis byte. -/
def parseAxis : List Byte → Option AxisId
  | [a] => axisOfByte a
  | _ => none

/-- SUBSCRIBE: the mask (R162). -/
def parseSubscribe : List Byte → Option (BitVec 12)
  | [hi, lo] => subscriptionOfBytes hi lo
  | _ => none

/-- SET_AXIS_CONFIG: the axis and the ten fields of the record (section 2.2.2). -/
def parseConfig : List Byte → Option (AxisId × AxisConfig)
  | [a, m, c2, c1, c0, k, d, w, dp, ip, t, co, s1, s0] => do
    let axis ← axisOfByte a
    let mode ← modeOfByte m
    let window ← windowOfByte w
    let policy ← policyOfByte dp
    let polarity ← polarityOfByte ip
    let correction ← correctionOfByte co
    some (axis, ⟨mode, beNat [c2, c1, c0], k.toNat, d.toNat, window, policy, polarity, t.toNat, correction,
      beNat [s1, s0]⟩)
  | _ => none

/-- ARM_REFERENCE: the axis, the offset and the reference turns (R48). -/
def parseArm : List Byte → Option (AxisId × Nat × Int)
  | [a, o2, o1, o0, t2, t1, t0] => do
    let axis ← axisOfByte a
    some (axis, beNat [o2, o1, o0], beInt [t2, t1, t0])
  | _ => none

/-- SET_REFERENCE: the axis, the turns and the count (R50). -/
def parseSetReference : List Byte → Option (AxisId × Position)
  | [a, t2, t1, t0, c2, c1, c0] => do
    let axis ← axisOfByte a
    some (axis, { turns := beInt [t2, t1, t0], count := beNat [c2, c1, c0] })
  | _ => none

/-- CLAIM: the subject, the lease in ms, and the idle level for a line and only for a line (R66). -/
def parseClaim : List Byte → Option (Subject × Nat × Level)
  | [s, l1, l0] =>
    match subjectOfByte s with
    | some (.axis a) => some (.axis a, beNat [l1, l0], .low)
    | _ => none
  | [s, l1, l0, i] =>
    match subjectOfByte s, levelOfByte i with
    | some (.line l), some lev => some (.line l, beNat [l1, l0], lev)
    | _, _ => none
  | _ => none

/-- RELEASE: the subject (R70). -/
def parseSubject : List Byte → Option Subject
  | [s] => subjectOfByte s
  | _ => none

/-- The arguments of BOOK as they travel (section 5.4). -/
structure BookArgs where
  axis : AxisId
  target : Position
  qual : Qualifier
  action : ActionKind
  line : LineId
  /-- µs -/
  width : Nat
  share : PortMask
  notify : Bool
  interval : Int
  repeats : Nat
  deriving DecidableEq, Repr

/-- BOOK: twenty bytes (section 5.4, R87 step 1). -/
def parseBook : List Byte → Option BookArgs
  | [a, t2, t1, t0, c2, c1, c0, q, ac, l, w1, w0, sh, nt, i3, i2, i1, i0, r1, r0] => do
    let axis ← axisOfByte a
    let qual ← qualifierOfByte q
    let action ← actionOfByte ac
    let line ← lineOfByte l
    let share ← portMaskOfByte sh
    let notify ← yesNoOfByte nt
    some ⟨axis, ⟨beInt [t2, t1, t0], beNat [c2, c1, c0]⟩, qual, action, line, beNat [w1, w0], share, notify,
      beInt [i3, i2, i1, i0], beNat [r1, r0]⟩
  | _ => none

/-- CANCEL and READ_ENTRY: the handle; a slot byte above 63 is a form error (R83, R173). -/
def parseHandle : List Byte → Option Handle
  | [s, g] => do
    let slot ← slotOfByte s
    some { slot := slot, gen := g }
  | _ => none

/-- LIST_ENTRIES: the axis and the start index (R95). -/
def parseList : List Byte → Option (AxisId × Nat)
  | [a, i] => do
    let axis ← axisOfByte a
    some (axis, i.toNat)
  | _ => none

/-- DRIVE_LINE: the line, the drive and the width in µs (R115). -/
def parseDrive : List Byte → Option (LineId × Drive × Nat)
  | [l, d, w1, w0] => do
    let line ← lineOfByte l
    let drive ← driveOfByte d
    some (line, drive, beNat [w1, w0])
  | _ => none

/-- SNAP: the share mask (R130). -/
def parseSnap : List Byte → Option PortMask
  | [m] => portMaskOfByte m
  | _ => none

/-- SUBSCRIBE_CAPTURE: the input and the edges (R122). -/
def parseCaptureSub : List Byte → Option (CapId × Edges)
  | [c, e] => do
    let cap ← capOfByte c
    let edges ← edgesOfByte e
    some (cap, edges)
  | _ => none

/-- READ_SNAPSHOT and RELEASE_SNAPSHOT: the capture number, six bytes (R132, R134). -/
def parseNumber : List Byte → Option Nat
  | [b5, b4, b3, b2, b1, b0] => some (beNat [b5, b4, b3, b2, b1, b0])
  | _ => none

/-! ### The checks of values -/

/-- The conditions of R27 on the record SET_AXIS_CONFIG carries. -/
def configAccepted (c : AxisConfig) : Bool :=
  decide (2 ≤ c.cpr ∧ c.cpr ≤ 1048576) && decide (c.divider ≤ 7) && decide (1 ≤ c.depth ∧ c.depth ≤ 16)
    && decide (2 * c.tolerance < c.cpr) && !(decide (c.mode = .quadIndex) && decide (c.policy ≠ .any))

/-- Step 2 of R66: the lease is 0 or 10 to 60,000 ms. -/
def leaseAccepted (ms : Nat) : Bool := decide (ms = 0 ∨ (10 ≤ ms ∧ ms ≤ 60000))

/-- Whether an action names a line (Table 5.2). -/
def ActionKind.namesLine : ActionKind → Bool
  | .pulse | .setActive | .setIdle | .toggle => true
  | .noticeOnly | .capture => false

/-- Step 3 of R87: the values of BOOK, under the CPR of the axis. -/
def bookAccepted (cpr : Nat) (b : BookArgs) : Bool :=
  decide (b.target.count < cpr)
    && (if b.action = .pulse then decide (1 ≤ b.width) else decide (b.width = 0))
    && (b.action.namesLine || decide (b.line = 0))
    && (decide (b.action = .capture) || decide (b.share = 0#3))
    && (if b.interval = 0 then decide (b.repeats = 0)
        else decide (-1048576 ≤ b.interval ∧ b.interval ≤ 1048576) && decide (1 ≤ b.repeats))

/-- Step 3 of R115: the width is 1 to 65,535 for PULSE and 0 otherwise. -/
def driveAccepted (d : Drive) (width : Nat) : Bool :=
  if d = .pulse then decide (1 ≤ width) else decide (width = 0)

end Sys2Proof
end

