-- ==== Sys2Proof/Machine/State.lean ====
section
/-! DEFINITION. The state of the block as plain data: every register, record, queue, counter and pin the spec names, the queue of
waiting commands, the closed types of faults and refusals, and the state right after device reset. -/

namespace Sys2Proof.Machine

/-- No event of the block stops it: the sensor and index faults of the manual are entries in an axis's fault record, and a
request that fails its checks is answered with a result code. So there is no constructor; nobody raises one. Safe. -/
inductive Fault : Type
  deriving DecidableEq, Repr

/-- Why the model has no meaning for a command. -/
inductive Refusal : Type where
  /-- Raised by an arm of `exec` alone, for a row that has no meaning yet. Safe: no claim is made about it. -/
  | notModelled (mnemonic : String)
  deriving DecidableEq, Repr

/-! ### Axis records -/

/-- Filter record of one line: accepted level and run count (section 1.2). -/
structure FilterRec where
  accepted : Level
  run : Nat
  deriving DecidableEq, Repr

/-- The code of an axis: the accepted levels of its lines; a line the mode does not use stands as LOW (section 1.4,
entry 15). -/
structure Code where
  a : Level
  b : Level
  z : Level
  deriving DecidableEq, Repr

/-- Fault record of an axis (Table 2.7). The first fault's kind and time are present together. -/
structure FaultRec where
  /-- fault set, one bit for each kind (Table 10.3) -/
  set : BitVec 7
  first : Option (FaultKind × Time)
  count : Nat
  deriving DecidableEq, Repr

/-- The sample dividers in force in the two CLKIN periods of the present tick; from the next tick on it is the one of the
configuration record (R1). -/
structure TickDividers where
  first : Nat
  second : Nat
  deriving DecidableEq, Repr

/-- One axis record, with its filter and Decoder state (Tables 2.1, 2.5, 2.7, 3.1; R4, R7, R14). -/
structure AxisRec where
  cfg : AxisConfig
  /-- the sample dividers in force in the present tick -/
  dividers : TickDividers
  filtA : FilterRec
  filtB : FilterRec
  filtZ : FilterRec
  prevCode : Option Code
  debt : Nat
  run : RunState
  pos : Position
  lastDir : LastDir
  motion : Motion
  lastStep : Option Time
  lastInterval : Option Nat
  timingRun : TimingRun
  /-- expiry time of the stall timer, absent while it is not running -/
  stall : Option Time
  faults : FaultRec
  refState : RefState
  epoch : BitVec 16
  refOffset : Nat
  refTurns : Int
  lastDrift : Option Int
  sinceIndex : Int
  deriving DecidableEq, Repr

/-! ### Claims and lines -/

/-- Claim record (Table 4.2); the idle level of an axis record stays LOW. -/
structure ClaimRec where
  holder : Option PortId
  /-- ms, 0 meaning no lease -/
  lease : Nat
  expiry : Option Time
  idle : Level
  deriving DecidableEq, Repr

/-- The fields of a line record that belong to the Trigger Output Unit (section 6.3); the holder and the idle level are
those of the line's claim record. -/
structure LineRec where
  /-- the level of the pin (R109) -/
  level : Level
  pulseEnd : Option Time
  activations : BitVec 32
  deriving DecidableEq, Repr

/-! ### The compare pool -/

/-- Action of an entry, with the fields present for it (Table 5.2). -/
inductive EntryAction where
  | noticeOnly
  /-- width in µs -/
  | pulse (line : LineId) (width : Nat)
  | setActive (line : LineId)
  | setIdle (line : LineId)
  | toggle (line : LineId)
  | capture (share : PortMask)
  deriving DecidableEq, Repr

/-- Interval and repeats remaining of a periodic entry (Table 5.2). -/
structure Periodic where
  interval : Int
  repeats : Nat
  deriving DecidableEq, Repr

/-- A compare entry (Table 5.2). Its handle is the slot it lies in with that slot's generation (R80). -/
structure Entry where
  owner : PortId
  axis : AxisId
  target : Position
  qual : Qualifier
  action : EntryAction
  notify : Bool
  periodic : Option Periodic
  state : EntryState
  fireCount : Nat
  serial : Nat
  deriving DecidableEq, Repr

/-- A slot of the pool: FREE when it holds no entry (R80). -/
structure PoolSlot where
  gen : Byte
  entry : Option Entry
  deriving DecidableEq, Repr

/-! ### The snapshot table -/

/-- Why a snapshot was taken (Table 7.2). -/
inductive Cause where
  | host (p : PortId)
  | edge (c : CapId) (rising : Bool)
  | compare (owner : PortId) (h : Handle)
  deriving DecidableEq, Repr

/-- Axis part of a snapshot (Table 7.3). -/
structure AxisPart where
  pos : Position
  lastDir : LastDir
  motion : Motion
  refState : RefState
  epoch : BitVec 16
  lastStep : Option Time
  lastInterval : Option Nat
  faults : BitVec 7
  deriving DecidableEq, Repr

/-- Contents of a HELD slot (Table 7.2). -/
structure Snapshot where
  number : Nat
  time : Time
  cause : Cause
  readers : PortMask
  parts : Vector (Option AxisPart) 4
  deriving DecidableEq, Repr

/-! ### Host ports -/

/-- A notice: its kind, its subject and the fields of that kind (Table 9.2). -/
inductive Notice where
  | compareFired (a : AxisId) (count : Nat) (h : Handle) (time : Time) (ended : Bool)
  | entriesCancelled (a : AxisId) (count : Nat)
  | referenceChanged (a : AxisId) (state : RefState) (epoch : BitVec 16)
  | axisFault (a : AxisId) (set : BitVec 7)
  | motionChanged (a : AxisId) (motion : Motion)
  | claimLost (subj : Subject)
  | snapshotReady (cls : CauseClass) (count : Nat) (newest : Nat)
  | snapshotSkipped (cls : CauseClass) (count : Nat) (reason : SkipReason)
  deriving DecidableEq, Repr

/-- An entry of a notice queue, with its late part if it has one (R167). -/
structure NoticeEntry where
  notice : Notice
  late : Option Notice
  deriving DecidableEq, Repr

/-- An entry of a request queue (section 8.1). -/
inductive RequestEntry where
  /-- an accepted request: the bytes of its frame from TAG to the last argument -/
  | request (tag cmd : Byte) (args : List Byte)
  /-- a damaged-frame entry -/
  | damaged (detail : FrameDetail) (tag : Byte)
  deriving DecidableEq, Repr

/-- The content kept of a delivered frame: KIND, TAG and body (R157). -/
structure FrameContent where
  kind : FrameKind
  tag : Byte
  body : List Byte
  deriving DecidableEq, Repr

/-- The last delivered frame: number and content (R157). -/
structure KeptFrame where
  number : BitVec 8
  content : FrameContent
  deriving DecidableEq, Repr

/-- A response that waits: its tag and its body. `repeats` marks an OK response to REPEAT_FRAME with the content it
carries, which is what the port keeps when it is delivered (R157). -/
structure Response where
  tag : Byte
  body : List Byte
  repeats : Option FrameContent
  deriving DecidableEq, Repr

/-- A device frame as fixed at the fall of CS_N, without LEN and CRC, which follow from it (R142, Table 10.5). -/
structure DeviceFrame where
  status : Byte
  frameNo : BitVec 8
  kind : FrameKind
  tag : Byte
  body : List Byte
  deriving DecidableEq, Repr

/-- The exchange of a port (Table 8.1). -/
inductive Exchange where
  /-- CS_N is high -/
  | idle
  /-- CS_N has been low since a device reset ended; no exchange is open until it has been seen high (R160) -/
  | waitHigh
  /-- CS_N is low and the selected frame is being sent; `voided` after a PORT_RESET of the port (R148) -/
  | active (frame : DeviceFrame) (voided : Bool)
  deriving DecidableEq, Repr

/-- The record of one host port (Table 8.1). -/
structure PortRec where
  requests : List RequestEntry
  responses : List Response
  notices : List NoticeEntry
  frameNo : BitVec 8
  lastDelivered : Option KeptFrame
  dropped : Bool
  resetSeen : Bool
  exchange : Exchange
  /-- notice subscriptions, in the bit order of Table 10.3 -/
  subs : BitVec 12
  /-- capture subscriptions for CAP0 and CAP1 (R122) -/
  capSubs : Vector Edges 2
  /-- whether no frame has been selected since device reset (R160) -/
  fresh : Bool
  deriving DecidableEq, Repr

/-! ### The whole block -/

/-- The state of the block. -/
structure State where
  /-- the commands that wait, first in, first out (entry 1) -/
  pending : List Instr
  time : Time
  axes : Vector AxisRec 4
  qw : Vector FilterRec 2
  cap : Vector FilterRec 2
  /-- the twelve claim records: axes 0 to 3, then TRG0 to TRG7 -/
  claims : Vector ClaimRec 12
  lines : Vector LineRec 8
  pool : Vector PoolSlot 64
  /-- h_p: the entries whose owner is port p (R81) -/
  booked : Vector Nat 3
  /-- next booking serial of each axis (R86) -/
  nextSerial : Vector Nat 4
  snaps : Vector (Option Snapshot) 16
  nextCapture : Nat
  /-- hold count of each port (R123) -/
  holds : Vector Nat 3
  ports : Vector PortRec 3
  /-- the model's own: how often the free value `Config.expiryRank` has been drawn (entry 7) -/
  draws : Nat
  deriving DecidableEq, Repr

/-! ### Reset values -/

/-- Accepted level LOW and run count 0 (R4, R5, R120). -/
def FilterRec.reset : FilterRec := ⟨.low, 0⟩

/-- The reset column of Table 2.1 (R25). -/
def configReset : AxisConfig := ⟨.off, 4, 0, 4, .none, .any, .activeHigh, 2, .snap, 0⟩

/-- An empty fault record (Table 2.7). -/
def FaultRec.reset : FaultRec := ⟨0#7, none, 0⟩

/-- Table 2.8 with R4, R7, R14 and R25. -/
def AxisRec.reset : AxisRec where
  cfg := configReset
  dividers := ⟨0, 0⟩
  filtA := .reset
  filtB := .reset
  filtZ := .reset
  prevCode := none
  debt := 0
  run := .disabled
  pos := ⟨0, 0⟩
  lastDir := .none
  motion := .stopped
  lastStep := none
  lastInterval := none
  timingRun := .closed
  stall := none
  faults := .reset
  refState := .unreferenced
  epoch := 0#16
  refOffset := 0
  refTurns := 0
  lastDrift := none
  sinceIndex := 0

/-- The reset column of Table 4.2, which is also the value of a free record. -/
def ClaimRec.free : ClaimRec := ⟨none, 0, none, .low⟩

/-- Table 6.2. -/
def LineRec.reset : LineRec := ⟨.low, none, 0#32⟩

/-- The reset column of Table 8.1. -/
def PortRec.reset : PortRec where
  requests := []
  responses := []
  notices := []
  frameNo := 0#8
  lastDelivered := none
  dropped := false
  resetSeen := true
  exchange := .idle
  subs := 0#12
  capSubs := Vector.replicate 2 .none
  fresh := true

/-- The block right after device reset with CS_N of every port high (R22, R25, R43, R79, R80, R119, R140, R160, R172). -/
def State.reset : State where
  pending := []
  time := 0#48
  axes := Vector.replicate 4 .reset
  qw := Vector.replicate 2 .reset
  cap := Vector.replicate 2 .reset
  claims := Vector.replicate 12 .free
  lines := Vector.replicate 8 .reset
  pool := Vector.replicate 64 ⟨0#8, none⟩
  booked := Vector.replicate 3 0
  nextSerial := Vector.replicate 4 0
  snaps := Vector.replicate 16 none
  nextCapture := 1
  holds := Vector.replicate 3 0
  ports := Vector.replicate 3 .reset
  draws := 0

end Sys2Proof.Machine
end

