-- ==== Sys2Proof/Machine/Formats.lean ====
section
/-! DEFINITION. Byte layouts: field encodings (Tables 10.3, 10.4), notices, frames (Tables 10.5, 10.15). -/

namespace Sys2Proof.Machine

/-! ### Fields -/

/-- The `w` low bytes of a number, most significant first (section 0.5.6). -/
def beBytes : Nat → Nat → List Byte
  | 0, _ => []
  | w + 1, n => BitVec.ofNat 8 (n / 256 ^ w) :: beBytes w n

/-- A signed number in two's complement on `w` bytes (Table 10.3). -/
def beSigned (w : Nat) (i : Int) : List Byte := beBytes w (i % (256 ^ w : Nat)).toNat

/-- A device time: six bytes. -/
def timeBytes (t : Time) : List Byte := beBytes 6 t.toNat

/-- The bytes of an optional field: none when it is absent (R177). -/
def optBytes {α : Type} (f : α → List Byte) : Option α → List Byte
  | none => []
  | some x => f x

/-- A flag bit of weight `w` (R177). -/
def flagBit (w : Nat) (b : Bool) : Nat := if b then w else 0

/-- A byte from a number below 256. -/
def byte (n : Nat) : Byte := BitVec.ofNat 8 n

/-- Turns and count: three bytes each. -/
def positionBytes (p : Position) : List Byte := beSigned 3 p.turns ++ beBytes 3 p.count

/-- A handle: slot, generation. -/
def handleBytes (h : Handle) : List Byte := [byte h.slot.1, h.gen]

/-- Result codes (Table 10.7). -/
def resultByte : ResultCode → Byte
  | .ok => 0x00
  | .frameError => 0x01
  | .unknownCommand => 0x02
  | .badArgument => 0x03
  | .notHolder => 0x04
  | .heldByOther => 0x05
  | .wrongState => 0x06
  | .poolFull => 0x07
  | .tableFull => 0x08
  | .holdLimit => 0x09
  | .notFound => 0x0A
  | .staleHandle => 0x0B
  | .notReader => 0x0C
  | .exhausted => 0x0D

/-- FRAME_ERROR details (Table 10.4). -/
def detailByte : FrameDetail → Byte
  | .truncated => 1
  | .length => 2
  | .crc => 3

/-- Frame kinds (Table 10.4). -/
def kindByte : FrameKind → Byte
  | .idle => 0
  | .response => 1
  | .notice => 2

/-- Notice kinds, the TAG of a notice frame (Table 10.4). -/
def noticeKindByte : NoticeKind → Byte
  | .compareFired => 1
  | .entriesCancelled => 2
  | .referenceChanged => 3
  | .axisFault => 4
  | .motionChanged => 5
  | .claimLost => 6
  | .snapshotReady => 7
  | .snapshotSkipped => 8

/-- Axis modes (Table 10.4). -/
def modeByte : Mode → Byte
  | .off => 0
  | .quad => 1
  | .quadIndex => 2
  | .hall3 => 3
  | .stepDir => 4

/-- Quiet windows (Table 10.4). -/
def windowByte : QuietWindow → Byte
  | .none => 0
  | .qw0 => 1
  | .qw1 => 2

/-- Direction policies (Table 10.4). -/
def policyByte : DirPolicy → Byte
  | .any => 0
  | .fwdOnly => 1
  | .revOnly => 2

/-- Index polarities (Table 10.4). -/
def polarityByte : Polarity → Byte
  | .activeHigh => 0
  | .activeLow => 1

/-- Correction modes (Table 10.4). -/
def correctionByte : Correction → Byte
  | .snap => 0
  | .check => 1

/-- Run states (Table 10.4). -/
def runByte : RunState → Byte
  | .disabled => 0
  | .counting => 1

/-- Last directions (Table 10.4). -/
def lastDirCode : LastDir → Nat
  | .none => 0
  | .forward => 1
  | .reverse => 2

/-- Motions (Table 10.4). -/
def motionCode : Motion → Nat
  | .stopped => 0
  | .forward => 1
  | .reverse => 2

/-- Reference states (Table 10.4). -/
def refStateCode : RefState → Nat
  | .unreferenced => 0
  | .seeking => 1
  | .referenced => 2
  | .suspect => 3
  | .lost => 4

/-- Levels (Table 10.4). -/
def levelCode : Level → Nat
  | .low => 0
  | .high => 1

/-- Qualifiers (Table 10.4). -/
def qualifierByte : Qualifier → Byte
  | .fwd => 0
  | .rev => 1
  | .either => 2

/-- Entry actions (Table 10.4). -/
def actionByte : EntryAction → Byte
  | .noticeOnly => 0
  | .pulse _ _ => 1
  | .setActive _ => 2
  | .setIdle _ => 3
  | .toggle _ => 4
  | .capture _ => 5

/-- Entry states (Table 10.4). -/
def entryStateByte : EntryState → Byte
  | .held => 0
  | .armed => 1

/-- Edges of a capture subscription (Table 10.4). -/
def edgesByte : Edges → Byte
  | .none => 0
  | .rising => 1
  | .falling => 2
  | .both => 3

/-- no 0, yes 1 (Table 10.4). -/
def yesNoByte (b : Bool) : Byte := if b then 1 else 0

/-- Cause classes (Table 10.4). -/
def causeClassByte : CauseClass → Byte
  | .host => 0
  | .cap0 => 1
  | .cap1 => 2
  | .compare => 3

/-- Causes (Table 10.4); for COMPARE the owner is given. -/
def causeByte : Cause → Byte
  | .host p => byte p.1
  | .edge c rising => byte (16 * (c.1 + 1) + if rising then 0 else 1)
  | .compare o _ => byte (0x30 + o.1)

/-- Claim subjects (Table 10.4). -/
def subjectByte : Subject → Byte
  | .axis a => byte a.1
  | .line l => byte (0x10 + l.1)

/-- A fault kind named alone is sent as its bit number (section 10.2). -/
def faultBit : FaultKind → Nat
  | .quadSkip => 0
  | .hallSkip => 1
  | .ratchetOverflow => 2
  | .hallCode => 3
  | .turnRange => 4
  | .indexDrift => 5
  | .indexMissing => 6

/-- The fault set with one kind in it (Table 10.3). -/
def faultMask (k : FaultKind) : BitVec 7 := 1#7 <<< faultBit k

/-- A port mask byte (Table 10.3). -/
def maskByte (m : PortMask) : Byte := byte m.toNat

/-- The reason of SNAPSHOT_SKIPPED, sent as the result code it names (R178). -/
def skipReasonByte : SkipReason → Byte
  | .holdLimit => resultByte .holdLimit
  | .tableFull => resultByte .tableFull

/-! ### Responses -/

/-- An OK body with its data (R176). -/
def okBody (data : List Byte) : List Byte := resultByte .ok :: data

/-- A refusal body with its data (R176, Table 10.9). -/
def refusal (c : ResultCode) (data : List Byte := []) : List Byte := resultByte c :: data

/-! ### Notices -/

/-- The kind of a notice (Table 9.1). -/
def Notice.kind : Notice → NoticeKind
  | .compareFired .. => .compareFired
  | .entriesCancelled .. => .entriesCancelled
  | .referenceChanged .. => .referenceChanged
  | .axisFault .. => .axisFault
  | .motionChanged .. => .motionChanged
  | .claimLost .. => .claimLost
  | .snapshotReady .. => .snapshotReady
  | .snapshotSkipped .. => .snapshotSkipped

/-- The subject of a notice, as the byte that stands first in its body (R178). -/
def Notice.subject : Notice → Byte
  | .compareFired a .. => byte a.1
  | .entriesCancelled a _ => byte a.1
  | .referenceChanged a .. => byte a.1
  | .axisFault a _ => byte a.1
  | .motionChanged a _ => byte a.1
  | .claimLost s => subjectByte s
  | .snapshotReady c .. => causeClassByte c
  | .snapshotSkipped c .. => causeClassByte c

/-- Kind and subject together: what a queue holds at most one notice of (R164). -/
def Notice.key (n : Notice) : NoticeKind × Byte := (n.kind, n.subject)

/-- The fields of a notice after its subject (Table 10.15). -/
def noticeFields : Notice → List Byte
  | .compareFired _ n h t ended => byte n :: handleBytes h ++ timeBytes t ++ [yesNoByte ended]
  | .entriesCancelled _ n => [byte n]
  | .referenceChanged _ st ep => byte (refStateCode st) :: beBytes 2 ep.toNat
  | .axisFault _ set => [byte set.toNat]
  | .motionChanged _ m => [byte (motionCode m)]
  | .claimLost _ => []
  | .snapshotReady _ n newest => byte n :: beBytes 6 newest
  | .snapshotSkipped _ n r => [byte n, skipReasonByte r]

/-- The body of a notice frame: subject, then fields (Table 10.15). -/
def noticeBody (n : Notice) : List Byte := n.subject :: noticeFields n

/-! ### Device frames -/

/-- The bytes of a device frame from STATUS to the end of its body (Table 10.5): LEN is 3 plus the body's length. -/
def DeviceFrame.covered (f : DeviceFrame) : List Byte :=
  [f.status, byte (3 + f.body.length), f.frameNo, kindByte f.kind, f.tag] ++ f.body

/-- The whole device frame, closed by its CRC-8 (Table 10.5, R175). -/
def DeviceFrame.bytes (f : DeviceFrame) : List Byte := f.covered ++ [crc8 f.covered]

end Sys2Proof.Machine
end

