-- ==== Sys2Proof/Machine/Flags.lean ====
section
/-! DEFINITION. The flags of a port: credits, the STATUS byte (Table 10.6), the ALERT_N and SDO pins, and port masks as sets. -/

namespace Sys2Proof.Machine

/-- The accepted level HIGH. -/
def isHigh : Level → Bool
  | .high => true
  | .low => false

/-! ### Port masks -/

/-- Whether a mask holds a port (Table 10.3). -/
def hasPort (m : PortMask) (p : PortId) : Bool := m.getLsbD p.1

/-- The mask of one port. -/
def onePort (p : PortId) : PortMask := 1#3 <<< p.1

/-- The mask of the ports for which `f` holds. -/
def maskOf (f : PortId → Bool) : PortMask :=
  (if f 0 then 1#3 else 0#3) ||| (if f 1 then 2#3 else 0#3) ||| (if f 2 then 4#3 else 0#3)

/-- The mask without a port. -/
def dropPort (m : PortMask) (p : PortId) : PortMask := maskOf (fun q => hasPort m q && decide (q ≠ p))

/-! ### Port flags and pins -/

/-- Requests waiting plus responses waiting (R150). -/
def PortRec.waiting (r : PortRec) : Nat := r.requests.length + r.responses.length

/-- Credits: the room left in the combined queues (R151). -/
def PortRec.credits (r : PortRec) : Nat := Config.queueRoom - r.waiting

/-- ALERT: notices wait (R142). -/
def PortRec.alert (r : PortRec) : Bool := !r.notices.isEmpty

/-- The ALERT_N pin: low exactly while the notice queue is not empty (R169). -/
def PortRec.alertN (r : PortRec) : Level := if r.alert then .low else .high

/-- The STATUS byte that stands now (Table 10.6). -/
def PortRec.status (r : PortRec) : Byte :=
  byte (r.credits + flagBit 16 r.alert + flagBit 32 r.dropped + flagBit 64 r.resetSeen)

/-- Whether a STATUS byte reports DROPPED (Table 10.6). -/
def reportsDropped (st : Byte) : Bool := st.getLsbD 5

/-- Whether a STATUS byte reports RESET_SEEN (Table 10.6). -/
def reportsReset (st : Byte) : Bool := st.getLsbD 6

/-- Bit `k` of the exchange on the SDO pin, counted from the fall of CS_N: the frame's bits most significant first, then
filler of all ones; high-impedance (none) while no exchange is open (R141, R160). -/
def PortRec.sdoBit (r : PortRec) (k : Nat) : Option Bool :=
  match r.exchange with
  | .active f _ => some ((f.bytes.getD (k / 8) 0xFF#8).getLsbD (7 - k % 8))
  | _ => none

end Sys2Proof.Machine
end

