-- ==== Sys2Proof/Machine/Ops.lean ====
section
/-! DEFINITION. Operations over the records every family uses: reading and replacing one record, the level filter (R3), timers (R23),
and the arrival of a notice in a port's queue (R164 to R167). -/

namespace Sys2Proof.Machine

/-! ### Records -/

/-- Place of a claim subject in the table: axes 0 to 3, then TRG0 to TRG7 (section 4.1). -/
def subjectIndex : Subject → Fin 12
  | .axis a => ⟨a.1, by omega⟩
  | .line l => ⟨4 + l.1, by omega⟩

/-- The twelve subjects in the order of section 4.1. -/
def allSubjects : List Subject := (List.finRange 4).map .axis ++ (List.finRange 8).map .line

/-- Axis record of `a`. -/
def State.axis (s : State) (a : AxisId) : AxisRec := s.axes.get a

/-- Port record of `p`. -/
def State.port (s : State) (p : PortId) : PortRec := s.ports.get p

/-- Claim record of a subject. -/
def State.claim (s : State) (subj : Subject) : ClaimRec := s.claims.get (subjectIndex subj)

/-- Line record of `l`. -/
def State.line (s : State) (l : LineId) : LineRec := s.lines.get l

/-- Pool slot `i`. -/
def State.slot (s : State) (i : SlotId) : PoolSlot := s.pool.get i

/-- Replace the axis record of `a` by `f` of it. -/
def State.modAxis (s : State) (a : AxisId) (f : AxisRec → AxisRec) : State :=
  { s with axes := upd s.axes a (f (s.axis a)) }

/-- Replace the port record of `p` by `f` of it. -/
def State.modPort (s : State) (p : PortId) (f : PortRec → PortRec) : State :=
  { s with ports := upd s.ports p (f (s.port p)) }

/-- Replace the claim record of a subject by `f` of it. -/
def State.modClaim (s : State) (subj : Subject) (f : ClaimRec → ClaimRec) : State :=
  { s with claims := upd s.claims (subjectIndex subj) (f (s.claim subj)) }

/-- Replace the line record of `l` by `f` of it. -/
def State.modLine (s : State) (l : LineId) (f : LineRec → LineRec) : State :=
  { s with lines := upd s.lines l (f (s.line l)) }

/-- Put `x` into pool slot `i`. -/
def State.setSlot (s : State) (i : SlotId) (x : PoolSlot) : State := { s with pool := upd s.pool i x }

/-- Whether port `p` holds the claim on a subject (R26 step 2). -/
def State.holdsClaim (s : State) (p : PortId) (subj : Subject) : Bool := decide ((s.claim subj).holder = some p)

/-! ### Filters -/

/-- The filter of R3 with the given depth at one sample taken with raw level `raw`. -/
def filterRun (depth : Nat) (raw : Level) (f : FilterRec) : FilterRec :=
  if raw = f.accepted then { f with run := 0 }
  else if f.run + 1 = depth then { accepted := raw, run := 0 }
  else { f with run := f.run + 1 }

/-! ### Timers -/

/-- The expiry time of a timer set now for `n` ticks (R23). -/
def expiryAfter (now : Time) (n : Nat) : Time := now + BitVec.ofNat 48 n

/-- The ticks from one device time to a later one, modulo 2^48 (R23). -/
def ticksFrom (earlier later : Time) : Nat := (later - earlier).toNat

/-- Whether a timer expires at the present tick (R23). -/
def isDue (now : Time) (expiry : Option Time) : Bool := decide (expiry = some now)

/-! ### Notices -/

/-- A saturating count of a notice (R165). -/
def satAdd (limit n m : Nat) : Nat := min limit (n + m)

/-- The merge of an arriving notice into the queued one of its kind and subject (Table 9.2). -/
def mergeNotice : Notice → Notice → Notice
  | .compareFired a n _ _ _, .compareFired _ m h t ended => .compareFired a (satAdd Config.noticeCountMax n m) h t ended
  | .entriesCancelled a n, .entriesCancelled _ m => .entriesCancelled a (satAdd Config.noticeCountMax n m)
  | .referenceChanged a _ _, .referenceChanged _ st ep => .referenceChanged a st ep
  | .axisFault a set, .axisFault _ set' => .axisFault a (set ||| set')
  | .motionChanged a _, .motionChanged _ m => .motionChanged a m
  | .claimLost subj, .claimLost _ => .claimLost subj
  | .snapshotReady c n _, .snapshotReady _ m newest => .snapshotReady c (satAdd Config.noticeCountMax n m) newest
  | .snapshotSkipped c n _, .snapshotSkipped _ m r => .snapshotSkipped c (satAdd Config.noticeCountMax n m) r
  | queued, _ => queued

/-- The merge into the late part of a selected entry (R167). -/
def mergeLate (late : Option Notice) (n : Notice) : Notice :=
  match late with
  | none => n
  | some l => mergeNotice l n

/-- The merge of a notice into a queued entry: into its late part when the entry is the selected frame of an open exchange
(R164, R167). -/
def NoticeEntry.merge (selected : Bool) (e : NoticeEntry) (n : Notice) : NoticeEntry :=
  if selected then { e with late := some (mergeLate e.late n) } else { e with notice := mergeNotice e.notice n }

/-- The arrival of a notice in a queue; `selected` says whether the head is the selected frame of an open exchange. -/
def enqueue (selected : Bool) (n : Notice) : List NoticeEntry → List NoticeEntry
  | [] => [⟨n, none⟩]
  | e :: rest => if e.notice.key = n.key then e.merge selected n :: rest else e :: enqueue false n rest

/-- Whether the head of the notice queue is the selected frame of an open exchange that no PORT_RESET has voided
(R142, R148). -/
def PortRec.noticeSelected (r : PortRec) : Bool :=
  match r.exchange with
  | .active f voided => decide (f.kind = .notice) && !voided
  | _ => false

/-- A notice reaches the port's notice queue (R164). -/
def PortRec.accept (r : PortRec) (n : Notice) : PortRec :=
  { r with notices := enqueue r.noticeSelected n r.notices }

/-- Raise a notice for one port (R161). -/
def State.raise (s : State) (p : PortId) (n : Notice) : State := s.modPort p (fun r => r.accept n)

/-- Raise a notice for each port that `who` names; the queues of different ports are different state (R161). -/
def State.raiseTo (s : State) (who : PortId → Bool) (n : Notice) : State :=
  ((List.finRange 3).filter who).foldl (fun s p => s.raise p n) s

/-- Bit of the subscription mask for REFERENCE_CHANGED of an axis (Table 10.3). -/
def subReference (a : AxisId) : Nat := a.1

/-- Bit of the subscription mask for AXIS_FAULT of an axis (Table 10.3). -/
def subFault (a : AxisId) : Nat := 4 + a.1

/-- Bit of the subscription mask for MOTION_CHANGED of an axis (Table 10.3). -/
def subMotion (a : AxisId) : Nat := 8 + a.1

/-- Whether a notice of this one's kind and subject waits in the port's queue (R164). -/
def PortRec.awaits (r : PortRec) (n : Notice) : Bool := r.notices.any (fun e => decide (e.notice.key = n.key))

/-- Whether a subscribed notice reaches a port: its mask has the bit at this moment (R161), or a notice of that kind and
subject waits in its queue, which goes on taking merges because merging does not read the mask (R163). -/
def PortRec.hears (r : PortRec) (bit : Nat) (n : Notice) : Bool := r.subs.getLsbD bit || r.awaits n

/-- Raise a notice that goes by subscriptions (R161, R163). -/
def State.raiseSubscribed (s : State) (bit : Nat) (n : Notice) : State := s.raiseTo (fun p => (s.port p).hears bit n) n

end Sys2Proof.Machine
end

