-- ==== Sys2Proof/Machine/Pool.lean ====
section
/-! DEFINITION. The compare pool: absolute positions, slots and handles, the ordered list of an axis, booking serials, accounting,
freeing, arming and holding (chapter The Compare Schedule). -/

namespace Sys2Proof.Machine

/-! ### Absolute positions (section 0.5.1) -/

/-- turns x CPR + count. -/
def absPos (cpr : Nat) (p : Position) : Int := p.turns * cpr + p.count

/-- An absolute position carried back into turns:count by floor division. -/
def ofAbs (cpr : Nat) (x : Int) : Position := ⟨x / cpr, (x % cpr).toNat⟩

/-- Whether an absolute position lies within the turns range (R57, R107). -/
def absInRange (cpr : Nat) (x : Int) : Bool :=
  decide (Config.turnsMin * cpr ≤ x) && decide (x ≤ Config.turnsMax * cpr + cpr - 1)

/-! ### Slots and handles -/

/-- The handle of the entry in slot `i`: the slot with its generation (R80). -/
def State.handleOf (s : State) (i : SlotId) : Handle := ⟨i, (s.slot i).gen⟩

/-- The lowest-numbered FREE slot (R80). -/
def State.freeSlot? (s : State) : Option SlotId := (List.finRange 64).find? (fun i => (s.slot i).entry.isNone)

/-- The slots whose entries meet a condition, in slot order. -/
def State.slotsWhere (s : State) (cond : Entry → Bool) : List SlotId :=
  (List.finRange 64).filter (fun i =>
    match (s.slot i).entry with
    | some e => cond e
    | none => false)

/-- Put an entry into slot `i`, whose generation is kept (R80). -/
def State.putEntry (s : State) (i : SlotId) (e : Entry) : State := s.setSlot i { s.slot i with entry := some e }

/-- Steps 2 to 5 of R83: a handle sent by port `p` names its entry, or the refusal it gets. -/
def State.resolve (s : State) (p : PortId) (h : Handle) : Except ResultCode Entry :=
  if (s.slot h.slot).gen ≠ h.gen then .error .staleHandle
  else match (s.slot h.slot).entry with
    | none => .error .notFound
    | some e => if e.owner = p then .ok e else .error .notFound

/-! ### The list of an axis (R85) -/

/-- The entries booked on an axis with their slots, in slot order. -/
def State.entriesOn (s : State) (a : AxisId) : List (SlotId × Entry) :=
  (List.finRange 64).filterMap (fun i =>
    match (s.slot i).entry with
    | some e => if e.axis = a then some (i, e) else none
    | none => none)

/-- The order of an axis's list: by absolute target, then by booking serial. -/
def entryLe (cpr : Nat) (x y : Entry) : Bool :=
  decide (absPos cpr x.target < absPos cpr y.target)
    || (decide (absPos cpr x.target = absPos cpr y.target) && decide (x.serial ≤ y.serial))

/-- Insert into a list in that order, ahead of the first element it may precede. -/
def insertEntry (cpr : Nat) (x : SlotId × Entry) : List (SlotId × Entry) → List (SlotId × Entry)
  | [] => [x]
  | y :: rest => if entryLe cpr x.2 y.2 then x :: y :: rest else y :: insertEntry cpr x rest

/-- A list of entries in that order. -/
def sortEntries (cpr : Nat) : List (SlotId × Entry) → List (SlotId × Entry)
  | [] => []
  | x :: rest => insertEntry cpr x (sortEntries cpr rest)

/-- The list of an axis, under the CPR in force (R85). It is computed from the slots (entry 11). -/
def State.axisList (s : State) (a : AxisId) : List (SlotId × Entry) :=
  sortEntries (s.axis a).cfg.cpr (s.entriesOn a)

/-! ### Booking serials (R86) -/

/-- Give the entries of the listed slots the serials `n`, `n + 1`, … -/
def State.giveSerials (s : State) (n : Nat) : List SlotId → State
  | [] => s
  | i :: rest =>
    (match (s.slot i).entry with
      | some e => s.putEntry i { e with serial := n }
      | none => s).giveSerials (n + 1) rest

/-- Renumber an axis: its entries take 0, 1, 2, … in list order, and the next serial becomes their number. -/
def State.renumber (s : State) (a : AxisId) : State :=
  { s.giveSerials 0 ((s.axisList a).map Prod.fst) with nextSerial := upd s.nextSerial a (s.axisList a).length }

/-- Ready the axis to give a serial: renumber first if the next serial has reached 2^32. -/
def State.readySerial (s : State) (a : AxisId) : State :=
  if s.nextSerial.get a = Config.serialEnd then s.renumber a else s

/-- Take the axis's next booking serial, which then grows by one. -/
def State.takeSerial (s : State) (a : AxisId) : State × Nat :=
  ({ s.readySerial a with nextSerial := upd (s.readySerial a).nextSerial a ((s.readySerial a).nextSerial.get a + 1) },
    (s.readySerial a).nextSerial.get a)

/-! ### Accounting (R81) -/

/-- The shared occupancy: the sum over the ports of max(0, h_p - 8). -/
def State.sharedOccupancy (s : State) : Nat :=
  (s.booked.get 0 - Config.poolReserve) + (s.booked.get 1 - Config.poolReserve) + (s.booked.get 2 - Config.poolReserve)

/-- The capacity check of a BOOK from port `p` (R88). -/
def State.hasRoom (s : State) (p : PortId) : Bool :=
  decide (s.booked.get p < Config.poolReserve) || decide (s.sharedOccupancy < Config.poolShared)

/-! ### Freeing (R84) -/

/-- Free the entry in slot `i`: the slot becomes FREE, its generation grows by one, its owner's count falls by one. -/
def State.freeEntry (s : State) (i : SlotId) : State :=
  match (s.slot i).entry with
  | none => s
  | some e =>
    { s.setSlot i ⟨(s.slot i).gen + 1#8, none⟩ with booked := upd s.booked e.owner (s.booked.get e.owner - 1) }

/-- Free the entries in the listed slots, one after another. -/
def State.freeEntries (s : State) (slots : List SlotId) : State := slots.foldl State.freeEntry s

/-! ### Arming and holding (R96, R97) -/

/-- A slot of the pool after its axis's entries take the given state. -/
def PoolSlot.setState (st : EntryState) (a : AxisId) (x : PoolSlot) : PoolSlot :=
  match x.entry with
  | some e => if e.axis = a then { x with entry := some { e with state := st } } else x
  | none => x

/-- Give every entry of an axis the state `st`. -/
def State.setEntryStates (s : State) (a : AxisId) (st : EntryState) : State :=
  { s with pool := s.pool.map (PoolSlot.setState st a) }

/-- The arming of an axis's entries (R96). -/
def State.armEntries (s : State) (a : AxisId) : State := s.setEntryStates a .armed

/-- The holding of an axis's entries (R97). -/
def State.holdEntries (s : State) (a : AxisId) : State := s.setEntryStates a .held

end Sys2Proof.Machine
end

