-- ==== Sys2Proof/Machine/Lines.lean ====
section
/-! DEFINITION. Trigger lines and claims as the other families use them: line actions (R110), grants and renewals at a line
(R67, R68), the freeing of a subject (R71), renewal by use (R72). -/

namespace Sys2Proof.Machine

/-- The line actions of Table 6.3; the width of a pulse is in µs. -/
inductive LineAction where
  | pulse (width : Nat)
  | setActive
  | setIdle
  | toggle
  deriving DecidableEq, Repr

/-- A line record after an action, under the idle level of the claim record, with "now" the given time (Table 6.3). -/
def LineRec.act (idle : Level) (now : Time) (act : LineAction) (r : LineRec) : LineRec :=
  match act with
  | .pulse w =>
    { level := idle.flip, pulseEnd := some (expiryAfter now (w * Config.ticksPerUs)), activations := r.activations + 1#32 }
  | .setActive =>
    { level := idle.flip, pulseEnd := none,
      activations := if r.level = idle.flip then r.activations else r.activations + 1#32 }
  | .setIdle => { r with level := idle, pulseEnd := none }
  | .toggle =>
    { level := r.level.flip, pulseEnd := none,
      activations := if r.level.flip = idle.flip then r.activations + 1#32 else r.activations }

/-- A line action taken by the Trigger Output Unit (R110). -/
def State.lineAction (s : State) (l : LineId) (now : Time) (act : LineAction) : State :=
  s.modLine l (fun r => r.act (s.claim (.line l)).idle now act)

/-- The end of a running pulse: the line takes the idle level its claim record holds (R111). -/
def State.endPulse (s : State) (l : LineId) : State :=
  s.modLine l (fun r => { r with level := (s.claim (.line l)).idle, pulseEnd := none })

/-- The line that an entry's action names, if any (Table 5.2). -/
def EntryAction.line? : EntryAction → Option LineId
  | .pulse l _ => some l
  | .setActive l => some l
  | .setIdle l => some l
  | .toggle l => some l
  | .noticeOnly => none
  | .capture _ => none

/-- The slots of the entries of port `p` whose action names line `l` (R71 step 3, R99). -/
def State.lineEntries (s : State) (l : LineId) (p : PortId) : List SlotId :=
  s.slotsWhere (fun e => decide (e.owner = p) && decide (e.action.line? = some l))

/-- The entries that freeing a subject cancels: those of the holder that name the line; none for an axis (R71). -/
def State.cancelledBy (s : State) (subj : Subject) : List SlotId :=
  match subj, (s.claim subj).holder with
  | .line l, some p => s.lineEntries l p
  | _, _ => []

/-- How many of the listed slots hold an entry on axis `a` (R99). -/
def State.countOn (s : State) (a : AxisId) (slots : List SlotId) : Nat :=
  (slots.filter (fun i =>
    match (s.slot i).entry with
    | some e => decide (e.axis = a)
    | none => false)).length

/-- Freeing a subject, in the order of R71: the record becomes free; a line's pulse ends and it is driven LOW; the former
holder's entries that name the line are freed. -/
def State.freeSubject (s : State) (subj : Subject) : State :=
  match subj with
  | .axis _ => s.modClaim subj (fun _ => ClaimRec.free)
  | .line l =>
    ((s.modClaim subj (fun _ => ClaimRec.free)).modLine l (fun r => { r with level := .low, pulseEnd := none })).freeEntries
      (s.cancelledBy subj)

/-- The expiry time of a lease set now; absent when the lease is 0 (R67). -/
def leaseExpiryTime (now : Time) (lease : Nat) : Option Time :=
  if lease = 0 then none else some (expiryAfter now (lease * Config.ticksPerMs))

/-- Renewal by use: the expiry time becomes now plus the claim's current lease; with lease 0 nothing changes (R72). -/
def State.renewByUse (s : State) (subj : Subject) : State :=
  s.modClaim subj (fun r => if r.lease = 0 then r else { r with expiry := leaseExpiryTime s.time r.lease })

/-- The level of a line after a renewal of its claim with idle level `new` (R68). -/
def LineRec.renewIdle (old new : Level) (r : LineRec) : LineRec :=
  if old = new ∨ r.pulseEnd.isSome then r
  else { r with level := if r.level = old then new else new.flip }

/-- Store holder, lease and idle level with the expiry time set now (R67, R68). -/
def State.storeClaim (s : State) (p : PortId) (subj : Subject) (lease : Nat) (idle : Level) : State :=
  s.modClaim subj (fun _ => ⟨some p, lease, leaseExpiryTime s.time lease, idle⟩)

/-- A grant: a line is driven to the new idle level (R67). -/
def State.grant (s : State) (p : PortId) (subj : Subject) (lease : Nat) (idle : Level) : State :=
  match subj with
  | .axis _ => s.storeClaim p subj lease idle
  | .line l => (s.storeClaim p subj lease idle).modLine l (fun r => { r with level := idle })

/-- A renewal by CLAIM: a changed idle level is handed to the line (R68). -/
def State.renew (s : State) (p : PortId) (subj : Subject) (lease : Nat) (idle : Level) : State :=
  match subj with
  | .axis _ => s.storeClaim p subj lease idle
  | .line l => (s.storeClaim p subj lease idle).modLine l (fun r => r.renewIdle (s.claim subj).idle idle)

end Sys2Proof.Machine
end

