-- ==== Sys2Proof/Machine/Captures.lean ====
section
/-! DEFINITION. Taking a capture (R126 to R128), and the reader sets of the snapshot table (chapter Captures and the Snapshot
Table). -/

namespace Sys2Proof.Machine

/-- Cause class of a cause (section 7.2). -/
def Cause.cls : Cause → CauseClass
  | .host _ => .host
  | .edge c _ => if c = 0 then .cap0 else .cap1
  | .compare _ _ => .compare

/-- The axis part a capture writes: present while the axis counts (R125, Table 7.3). -/
def AxisRec.part (r : AxisRec) : Option AxisPart :=
  match r.run with
  | .disabled => none
  | .counting => some ⟨r.pos, r.lastDir, r.motion, r.refState, r.epoch, r.lastStep, r.lastInterval, r.faults.set⟩

/-- The four axis parts, every record read at this point (R126). -/
def State.axisParts (s : State) : Vector (Option AxisPart) 4 := Vector.ofFn (fun a => (s.axis a).part)

/-- The lowest-numbered FREE snapshot slot (R128). -/
def State.freeSnap? (s : State) : Option (Fin 16) := (List.finRange 16).find? (fun i => (s.snaps.get i).isNone)

/-- How a capture ended (R127, R128). -/
inductive CaptureResult where
  | exhausted
  | noReader
  | tableFull
  | filled (number : Nat)
  deriving DecidableEq, Repr

/-- The candidates that pruning removes: those at their hold limit (R127). -/
def State.pruned (s : State) (cands : PortMask) : PortMask :=
  maskOf (fun p => hasPort cands p && decide (Config.holdLimit ≤ s.holds.get p))

/-- The candidates that remain after pruning (R127). -/
def State.unpruned (s : State) (cands : PortMask) : PortMask :=
  maskOf (fun p => hasPort cands p && !decide (Config.holdLimit ≤ s.holds.get p))

/-- Tell the ports of a mask, other than the requester of a SNAP, of a capture's outcome (R127, R128). -/
def State.tell (s : State) (m : PortMask) (requester : Option PortId) (n : Notice) : State :=
  s.raiseTo (fun p => hasPort m p && decide (requester ≠ some p)) n

/-- Fill slot `i`: the snapshot takes the next capture number and the hold count of each reader grows by one (R128). -/
def State.fillSnap (s : State) (i : Fin 16) (cause : Cause) (t : Time) (readers : PortMask) : State :=
  { s with
    snaps := upd s.snaps i (some ⟨s.nextCapture, t, cause, readers, s.axisParts⟩)
    nextCapture := s.nextCapture + 1
    holds := Vector.ofFn (fun p => s.holds.get p + if hasPort readers p then 1 else 0) }

/-- After pruning: the three ways of R128. -/
def State.captureInto (s : State) (cause : Cause) (t : Time) (readers : PortMask) (requester : Option PortId) :
    State × CaptureResult :=
  if readers = 0#3 then (s, .noReader)
  else match s.freeSnap? with
    | none => (s.tell readers requester (.snapshotSkipped cause.cls 1 .tableFull), .tableFull)
    | some i =>
      ((s.fillSnap i cause t readers).tell readers requester (.snapshotReady cause.cls 1 s.nextCapture),
        .filled s.nextCapture)

/-- One capture event: exhaustion, pruning, then the three ways of R128. `requester` is the port of a SNAP. A pruned candidate
is told where none remains, too (R127; DEDUCED from section 11.3 against the empty-set clause of R137; entry 19). -/
def State.capture (s : State) (cause : Cause) (t : Time) (cands : PortMask) (requester : Option PortId) :
    State × CaptureResult :=
  if Config.captureEnd ≤ s.nextCapture then (s, .exhausted)
  else (s.tell (s.pruned cands) requester (.snapshotSkipped cause.cls 1 .holdLimit)).captureInto cause t
    (s.unpruned cands) requester

/-- Whether a subscription names an edge of this direction (R121). -/
def edgeNamed (e : Edges) (rising : Bool) : Bool :=
  match e with
  | .both => true
  | .rising => rising
  | .falling => !rising
  | .none => false

/-- The capture request of an accepted edge on a capture input (R121). -/
def State.edgeCapture (s : State) (c : CapId) (rising : Bool) : State :=
  (s.capture (.edge c rising) s.time (maskOf (fun p => edgeNamed ((s.port p).capSubs.get c) rising)) none).1

/-- The HELD slot with a capture number (R132). -/
def State.findSnap (s : State) (number : Nat) : Option (Fin 16) :=
  (List.finRange 16).find? (fun i =>
    match s.snaps.get i with
    | some x => decide (x.number = number)
    | none => false)

/-- The snapshots whose reader set includes `p`, in slot order. -/
def State.heldBy (s : State) (p : PortId) : List Snapshot :=
  (List.finRange 16).filterMap (fun i =>
    match s.snaps.get i with
    | some x => if hasPort x.readers p then some x else none
    | none => none)

/-- A slot after port `p` leaves its reader set; it becomes FREE when the set becomes empty (R134, R138). -/
def leaveReaders (p : PortId) : Option Snapshot → Option Snapshot
  | none => none
  | some x => if dropPort x.readers p = 0#3 then none else some { x with readers := dropPort x.readers p }

/-- Port `p` leaves the reader set of slot `i`, and its hold count falls by one (R134). -/
def State.releaseSnap (s : State) (i : Fin 16) (p : PortId) : State :=
  { s with
    snaps := upd s.snaps i (leaveReaders p (s.snaps.get i))
    holds := upd s.holds p (s.holds.get p - 1) }

/-- Port `p` leaves every reader set and its hold count becomes 0 (R138). -/
def State.leaveAllSnaps (s : State) (p : PortId) : State :=
  { s with
    snaps := s.snaps.map (leaveReaders p)
    holds := upd s.holds p 0 }

end Sys2Proof.Machine
end

