-- ==== Sys2Proof/Machine/Reference.lean ====
section
/-! DEFINITION. The Reference Tracker (chapter Referencing): changes of the reference state with their hand-overs and notices, entering
faults, the index check, the SNAP correction, the missed-index check. -/

namespace Sys2Proof.Machine

/-! ### Changing the reference state (R45, R46) -/

/-- Set reference state and epoch. -/
def State.putReference (s : State) (a : AxisId) (st : RefState) (ep : BitVec 16) : State :=
  s.modAxis a (fun r => { r with refState := st, epoch := ep })

/-- The hand-over to the Compare Scheduler for a change from `old` to `new` (R46). -/
def State.handOver (s : State) (a : AxisId) (old new : RefState) : State :=
  if old ≠ .referenced ∧ new = .referenced then s.armEntries a
  else if old = .referenced ∧ new ≠ .referenced then s.holdEntries a
  else s

/-- One event at the Reference Tracker that leaves state `st` and epoch `ep`: entries are armed or held when REFERENCED is
entered or left (R46), and one REFERENCE_CHANGED is raised if state or epoch changed (R45). -/
def State.changeReference (s : State) (a : AxisId) (st : RefState) (ep : BitVec 16) : State :=
  if (s.axis a).refState = st ∧ (s.axis a).epoch = ep then (s.putReference a st ep).handOver a (s.axis a).refState st
  else ((s.putReference a st ep).handOver a (s.axis a).refState st).raiseSubscribed (subReference a)
    (.referenceChanged a st ep)

/-! ### Faults -/

/-- Entering a fault of kind `k` found at time `t` in a fault record (R40). -/
def FaultRec.enter (k : FaultKind) (t : Time) (f : FaultRec) : FaultRec where
  set := f.set ||| faultMask k
  first := if f.set = 0#7 then some (k, t) else f.first
  count := satAdd Config.faultCountMax f.count 1

/-- Enter a fault in the record of an axis (R40). -/
def State.enterFault (s : State) (a : AxisId) (k : FaultKind) (t : Time) : State :=
  s.modAxis a (fun r => { r with faults := r.faults.enter k t })

/-- Raise AXIS_FAULT with the fault set as it stands (R18, R62, R165). -/
def State.raiseAxisFault (s : State) (a : AxisId) : State :=
  s.raiseSubscribed (subFault a) (.axisFault a (s.axis a).faults.set)

/-- A fault with its effect on the reference state: it is entered, the state changes, AXIS_FAULT is raised after the
REFERENCE_CHANGED, if any (R18, R62). -/
def State.fault (s : State) (a : AxisId) (k : FaultKind) (t : Time) (after : RefState) : State :=
  ((s.enterFault a k t).changeReference a after (s.axis a).epoch).raiseAxisFault a

/-- Whether a sensor fault is major (Table 1.11). -/
def isMajor : FaultKind → Bool
  | .hallCode => true
  | .turnRange => true
  | _ => false

/-- Reference state after a minor fault (R19, Table 1.12). -/
def afterMinor : RefState → RefState
  | .referenced => .suspect
  | .suspect => .lost
  | st => st

/-- Reference state after a major fault (R20). -/
def afterMajor : RefState → RefState
  | .referenced => .lost
  | .suspect => .lost
  | st => st

/-- A sensor fault recorded at stage 4 (R18 to R20). -/
def State.sensorFault (s : State) (a : AxisId) (t : Time) (k : FaultKind) : State :=
  s.fault a k t (if isMajor k then afterMajor (s.axis a).refState else afterMinor (s.axis a).refState)

/-! ### The index check -/

/-- The drift: count minus offset, brought into -CPR/2 < d <= CPR/2 (R55). -/
def driftOf (cpr offset count : Nat) : Int :=
  let x := ((count : Int) - offset) % cpr
  if 2 * x > cpr then x - cpr else x

/-- The position after a SNAP correction by drift `d`, or none where it would leave the turns range (R57). -/
def snapTo (cpr : Nat) (p : Position) (d : Int) : Option Position :=
  if absInRange cpr (absPos cpr p - d) then some (ofAbs cpr (absPos cpr p - d)) else none

/-- What an index event with drift `d` does to the position: none when it is beyond tolerance or the correction is
refused, else the position that stands after it (R56, R57, R58). -/
def confirmPosition (cfg : AxisConfig) (p : Position) (d : Int) : Option Position :=
  if d.natAbs ≤ cfg.tolerance then
    match cfg.correction with
    | .snap => snapTo cfg.cpr p d
    | .check => some p
  else none

/-- The establishment of a reference: position, since-index distance and last drift are set, the epoch grows by one,
the state becomes REFERENCED (R50, R54). -/
def State.establish (s : State) (a : AxisId) (p : Position) : State :=
  (s.modAxis a (fun r => { r with pos := p, sinceIndex := 0, lastDrift := none })).changeReference a .referenced
    ((s.axis a).epoch + 1#16)

/-- An index event that is checked, in REFERENCED or SUSPECT: the drift is recorded, then confirms or recovers the
reference, or is a drift beyond tolerance that leads to `beyond` (R55 to R59). -/
def State.checkIndex (s : State) (a : AxisId) (t : Time) (beyond : RefState) : State :=
  let r := s.axis a
  let d := driftOf r.cfg.cpr r.refOffset r.pos.count
  match confirmPosition r.cfg r.pos d with
  | some p => (s.modAxis a (fun r => { r with pos := p, lastDrift := some d })).changeReference a .referenced r.epoch
  | none => (s.modAxis a (fun r => { r with lastDrift := some d })).fault a .indexDrift t beyond

/-- The handling of an index event by the reference state in force (R53). -/
def State.judgeIndex (s : State) (a : AxisId) (t : Time) : State :=
  match (s.axis a).refState with
  | .seeking => s.establish a ⟨(s.axis a).refTurns, (s.axis a).refOffset⟩
  | .referenced => s.checkIndex a t .suspect
  | .suspect => s.checkIndex a t .lost
  | .unreferenced => s
  | .lost => s

/-- Set the since-index distance to 0. -/
def State.zeroSince (s : State) (a : AxisId) : State := s.modAxis a (fun r => { r with sinceIndex := 0 })

/-- An index event at stage 3: handled, then the since-index distance is 0 (R53). -/
def State.indexEvent (s : State) (a : AxisId) (t : Time) : State := (s.judgeIndex a t).zeroSince a

/-! ### Missed index -/

/-- The since-index distance after one applied step (R60). -/
def countSince (d : Dir) (n : Int) : Int :=
  match d with
  | .forward => min Config.sinceMax (n + 1)
  | .reverse => max Config.sinceMin (n - 1)

/-- The distance moved toward 0 by CPR (R61). -/
def towardZero (cpr : Nat) (n : Int) : Int := if 0 < n then n - cpr else n + cpr

/-- Whether the missed-index check triggers (R61). -/
def AxisRec.indexMissed (r : AxisRec) : Bool :=
  decide (r.cfg.mode = .quadIndex) && (decide (r.refState = .referenced) || decide (r.refState = .suspect))
    && decide (r.cfg.cpr + r.cfg.tolerance < r.sinceIndex.natAbs)

/-- The missed-index check at stage 2(e) (R61, R62). -/
def State.missedIndex (s : State) (a : AxisId) (t : Time) : State :=
  if (s.axis a).indexMissed then
    (s.modAxis a (fun r => { r with sinceIndex := towardZero r.cfg.cpr r.sinceIndex })).fault a .indexMissing t
      (if (s.axis a).refState = .referenced then .suspect else .lost)
  else s

end Sys2Proof.Machine
end

