-- ==== Sys2Proof/Machine/Firing.lean ====
section
/-! DEFINITION. Firing (chapter Firing and Trigger Lines): which entries an offered step fires, and the four parts of a firing. -/

namespace Sys2Proof.Machine

/-- Whether a qualifier accepts a direction (R103). -/
def accepts : Qualifier → Dir → Bool
  | .either, _ => true
  | .fwd, .forward => true
  | .rev, .reverse => true
  | _, _ => false

/-- The three conditions of R103 on an entry of the axis. -/
def Entry.matches (e : Entry) (cpr : Nat) (p : Position) (d : Dir) : Bool :=
  decide (absPos cpr e.target = absPos cpr p) && decide (e.state = .armed) && accepts e.qual d

/-- Part 1 of a firing at time `t` of entry `e`, whose handle is `h` (R105, R113, R114). -/
def State.perform (s : State) (e : Entry) (h : Handle) (t : Time) : State :=
  match e.action with
  | .noticeOnly => s
  | .pulse l w => s.lineAction l t (.pulse w)
  | .setActive l => s.lineAction l t .setActive
  | .setIdle l => s.lineAction l t .setIdle
  | .toggle l => s.lineAction l t .toggle
  | .capture share => (s.capture (.compare e.owner h) t (onePort e.owner ||| share) none).1

/-- Repeats remaining after a firing: none when they run out (R107 step 1). -/
def useRepeat (n : Nat) : Option Nat :=
  if n = Config.repeatsUnlimited then some n else if n - 1 = 0 then none else some (n - 1)

/-- The entry as it goes on after its firing, or none when it ends; its new serial is given afterwards
(R106, R107 steps 1 and 2). -/
def Entry.settled (cpr : Nat) (e : Entry) : Option Entry :=
  match e.periodic with
  | none => none
  | some q =>
    match useRepeat q.repeats with
    | none => none
    | some n =>
      if absInRange cpr (absPos cpr e.target + q.interval) then
        some { e with target := ofAbs cpr (absPos cpr e.target + q.interval), periodic := some { q with repeats := n } }
      else none

/-- Part 2: the fire count grows by one, up to 65,535 (R105). -/
def Entry.counted (e : Entry) : Entry := { e with fireCount := satAdd Config.fireCountMax e.fireCount 1 }

/-- Part 3: COMPARE_FIRED to the owner, if the entry asks for it (R105, R108). -/
def State.notifyFired (s : State) (e : Entry) (h : Handle) (t : Time) (ended : Bool) : State :=
  if e.notify then s.raise e.owner (.compareFired e.axis 1 h t ended) else s

/-- Part 4: a one-shot or spent entry ends; a periodic one takes the next serial and its new place (R106, R107). -/
def State.settle (s : State) (i : SlotId) (a : AxisId) : Option Entry → State
  | none => s.freeEntry i
  | some e => (s.takeSerial a).1.putEntry i { e with serial := (s.takeSerial a).2 }

/-- The firing at time `t` of the entry in slot `i` of the list of axis `a` (R105). -/
def State.fire (s : State) (a : AxisId) (t : Time) (i : SlotId) : State :=
  match (s.slot i).entry with
  | none => s
  | some e =>
    let after := e.counted.settled (s.axis a).cfg.cpr
    ((((s.perform e (s.handleOf i) t).putEntry i e.counted).notifyFired e (s.handleOf i) t after.isNone)).settle i a after

/-- The slots whose entries fire on an offer, in list order; the set is fixed when the offer is made (R103, R104). -/
def State.matching (s : State) (a : AxisId) (d : Dir) : List SlotId :=
  ((s.axisList a).filter (fun x => x.2.matches (s.axis a).cfg.cpr (s.axis a).pos d)).map Prod.fst

/-- An applied step offered to the Compare Scheduler: the matching entries fire one after another (R103, R104). -/
def State.offer (s : State) (a : AxisId) (d : Dir) (t : Time) : State :=
  (s.matching a d).foldl (fun s i => s.fire a t i) s

end Sys2Proof.Machine
end

