-- ==== Sys2Proof/Machine/Sampling.lean ====
section
/-! DEFINITION. The family of input events: the sample with the Decoder and the four stages of R15, QUIET_WINDOW_CHANGE,
CAPTURE_EDGE and INPUT_FILTER_RUN (chapter Counting Inputs, section 7.1). SAMPLE_TAKEN itself stands in Weaving.lean. -/

namespace Sys2Proof.Machine

/-! ### When a sample is taken -/

/-- Number of the CLKIN period: two to a tick of device time (R1, R22; entry 6). -/
def clkinNumber (t : Time) : ClkPhase → Nat
  | .first => 2 * t.toNat
  | .second => 2 * t.toNat + 1

/-- Whether a CLKIN period is a sample instant for sample divider `k` (R1). -/
def isSampleInstant (k : Nat) (t : Time) (ph : ClkPhase) : Bool := decide (clkinNumber t ph % 2 ^ k = 0)

/-- Whether the quiet window an axis selects is open (R5, R6). -/
def State.windowOpen (s : State) : QuietWindow → Bool
  | .none => true
  | .qw0 => isHigh (s.qw.get 0).accepted
  | .qw1 => isHigh (s.qw.get 1).accepted

/-! ### The Decoder, stage 1 -/

/-- The code of a sample: the accepted levels of the lines the mode uses (Table 1.4, entry 15). -/
def codeOf (m : Mode) (a b z : Level) : Code :=
  match m with
  | .quadIndex => ⟨a, b, z⟩
  | .hall3 => ⟨a, b, z⟩
  | _ => ⟨a, b, .low⟩

/-- Phase number of a quadrature code in the cycle 00, 10, 11, 01 (section 1.5). -/
def phaseOf (c : Code) : Nat :=
  match c.a, c.b with
  | .low, .low => 0
  | .high, .low => 1
  | .high, .high => 2
  | .low, .high => 3

/-- Sector number of a Hall code in the cycle 100, 110, 010, 011, 001, 101; none for 000 and 111 (section 1.6). -/
def sectorOf (c : Code) : Option Nat :=
  match c.a, c.b, c.z with
  | .high, .low, .low => some 0
  | .high, .high, .low => some 1
  | .low, .high, .low => some 2
  | .low, .high, .high => some 3
  | .low, .low, .high => some 4
  | .high, .low, .high => some 5
  | .low, .low, .low => none
  | .high, .high, .high => none

/-- What stage 1 of a sample yields (R15). -/
structure Decoded where
  steps : List Dir
  index : Bool
  fault : Option FaultKind
  deriving DecidableEq, Repr

/-- A sample that yields nothing. -/
def Decoded.nothing : Decoded := ⟨[], false, none⟩

/-- The last direction that a raw step leaves (R35). -/
def lastDirOf : Dir → LastDir
  | .forward => .forward
  | .reverse => .reverse

/-- The last direction in force after the raw steps of a sample (R9). -/
def lastDirAfter (before : LastDir) (steps : List Dir) : LastDir :=
  match steps.getLast? with
  | none => before
  | some d => lastDirOf d

/-- Whether Z is active under the index polarity (R9). -/
def zActive (p : Polarity) (z : Level) : Bool :=
  match p with
  | .activeHigh => isHigh z
  | .activeLow => !isHigh z

/-- Whether a change of Z is an index event: becoming active while FORWARD, or inactive while REVERSE (R9). -/
def isIndexEvent (p : Polarity) (dir : LastDir) (old new : Level) : Bool :=
  decide (old ≠ new) &&
    match dir with
    | .forward => zActive p new
    | .reverse => !zActive p new
    | .none => false

/-- The raw steps of a quadrature phase difference (Table 1.5). -/
def quadSteps : Nat → List Dir
  | 1 => [.forward]
  | 3 => [.reverse]
  | _ => []

/-- A changed code in QUAD and QUAD_INDEX (R8, R9). -/
def decodeQuad (cfg : AxisConfig) (dir : LastDir) (old new : Code) : Decoded :=
  let diff := (phaseOf new + 4 - phaseOf old) % 4
  { steps := quadSteps diff
    index := decide (cfg.mode = .quadIndex) && isIndexEvent cfg.polarity (lastDirAfter dir (quadSteps diff)) old.z new.z
    fault := if diff = 2 then some .quadSkip else none }

/-- The raw steps and the fault of a Hall sector difference (Table 1.7). -/
def hallResult : Nat → Decoded
  | 1 => ⟨[.forward], false, none⟩
  | 5 => ⟨[.reverse], false, none⟩
  | 2 => ⟨[.forward, .forward], false, some .hallSkip⟩
  | 4 => ⟨[.reverse, .reverse], false, some .hallSkip⟩
  | 3 => ⟨[], false, some .hallSkip⟩
  | _ => .nothing

/-- A changed code in HALL3: an invalid code is HALL_CODE, and a valid one after an invalid one is a baseline (R10, R11). -/
def decodeHall (old new : Code) : Decoded :=
  match sectorOf new with
  | none => ⟨[], false, some .hallCode⟩
  | some n =>
    match sectorOf old with
    | none => .nothing
    | some o => hallResult ((n + 6 - o) % 6)

/-- A changed code in STEP_DIR: a rise of A is a step in the direction of the new level of B (R12). -/
def decodeStepDir (old new : Code) : Decoded :=
  if old.a = .low ∧ new.a = .high then ⟨[if new.b = .high then .forward else .reverse], false, none⟩ else .nothing

/-- A changed code by the rules of the mode (R7). -/
def decodeChange (cfg : AxisConfig) (dir : LastDir) (old new : Code) : Decoded :=
  match cfg.mode with
  | .off => .nothing
  | .quad => decodeQuad cfg dir old new
  | .quadIndex => decodeQuad cfg dir old new
  | .hall3 => decodeHall old new
  | .stepDir => decodeStepDir old new

/-- The baseline: nothing but the HALL_CODE of an invalid Hall code (R7, R11). -/
def decodeBaseline (cfg : AxisConfig) (new : Code) : Decoded :=
  if cfg.mode = .hall3 ∧ sectorOf new = none then ⟨[], false, some .hallCode⟩ else .nothing

/-- Stage 1 of a sample with code `new`: a baseline, a changed code, or no action (R7). -/
def decodeSample (r : AxisRec) (new : Code) : Decoded :=
  match r.prevCode with
  | none => decodeBaseline r.cfg new
  | some old => if old = new then .nothing else decodeChange r.cfg r.lastDir old new

/-! ### Stage 2 -/

/-- The motion a raw step sets (R37). -/
def motionOf : Dir → Motion
  | .forward => .forward
  | .reverse => .reverse

/-- The last interval a raw step leaves (R36). -/
def intervalAfter (r : AxisRec) (d : Dir) (t : Time) : Option Nat :=
  if r.timingRun = .opened ∧ r.lastDir = lastDirOf d then r.lastStep.map (fun t0 => min Config.intervalMax (ticksFrom t0 t))
  else none

/-- The fields a raw step of direction `d` at time `t` updates at stage 2(a) (R35 to R38). -/
def AxisRec.rawStep (r : AxisRec) (d : Dir) (t : Time) : AxisRec :=
  { r with
    lastInterval := intervalAfter r d t
    timingRun := .opened
    lastDir := lastDirOf d
    lastStep := some t
    motion := motionOf d
    stall := if r.cfg.stallMs = 0 then r.stall else some (expiryAfter t (r.cfg.stallMs * Config.ticksPerMs)) }

/-- Stage 2(a): the fields, and MOTION_CHANGED if the motion changes (R37). -/
def State.rawStep (s : State) (a : AxisId) (d : Dir) (t : Time) : State :=
  if (s.axis a).motion = motionOf d then s.modAxis a (fun r => r.rawStep d t)
  else (s.modAxis a (fun r => r.rawStep d t)).raiseSubscribed (subMotion a) (.motionChanged a (motionOf d))

/-- What the ratchet decides for one raw step: whether it is applied, the debt after it, whether it raises
RATCHET_OVERFLOW (Table 1.9). -/
structure RatchetResult where
  applied : Bool
  debt : Nat
  overflow : Bool
  deriving DecidableEq, Repr

/-- Whether a policy forbids a direction (section 1.8). -/
def forbids : DirPolicy → Dir → Bool
  | .fwdOnly, .reverse => true
  | .revOnly, .forward => true
  | _, _ => false

/-- The ratchet of R13. -/
def ratchet (pol : DirPolicy) (d : Dir) (debt : Nat) : RatchetResult :=
  if pol = .any then ⟨true, debt, false⟩
  else if forbids pol d then
    if debt < Config.debtMax then ⟨false, debt + 1, false⟩ else ⟨false, debt, true⟩
  else if 0 < debt then ⟨false, debt - 1, false⟩
  else ⟨true, 0, false⟩

/-- The position after an applied step (R33), with the wrap of R34. -/
def stepPosition (cpr : Nat) (d : Dir) (p : Position) : Position :=
  match d with
  | .forward =>
    if p.count + 1 < cpr then ⟨p.turns, p.count + 1⟩
    else if p.turns = Config.turnsMax then ⟨Config.turnsMin, 0⟩ else ⟨p.turns + 1, 0⟩
  | .reverse =>
    if 0 < p.count then ⟨p.turns, p.count - 1⟩
    else if p.turns = Config.turnsMin then ⟨Config.turnsMax, cpr - 1⟩ else ⟨p.turns - 1, cpr - 1⟩

/-- Whether an applied step carries turns past an end of its range (R34). -/
def stepWraps (cpr : Nat) (d : Dir) (p : Position) : Bool :=
  match d with
  | .forward => !decide (p.count + 1 < cpr) && decide (p.turns = Config.turnsMax)
  | .reverse => decide (p.count = 0) && decide (p.turns = Config.turnsMin)

/-- Stage 2(c): the position moves by one count (R33, R34). -/
def State.moveAxis (s : State) (a : AxisId) (d : Dir) : State :=
  s.modAxis a (fun r => { r with pos := stepPosition r.cfg.cpr d r.pos })

/-- The count of R60 at stage 2(e). -/
def State.countStep (s : State) (a : AxisId) (d : Dir) : State :=
  s.modAxis a (fun r => { r with sinceIndex := countSince d r.sinceIndex })

/-- Stage 2(e) of an applied step: the count and the missed-index check (R60, R61). -/
def State.checkStep (s : State) (a : AxisId) (t : Time) (d : Dir) : State := (s.countStep a d).missedIndex a t

/-- Set the ratchet debt. -/
def State.setDebt (s : State) (a : AxisId) (n : Nat) : State := s.modAxis a (fun r => { r with debt := n })

/-- The stage 2 faults of a raw step: RATCHET_OVERFLOW, or the TURN_RANGE of an applied step (R17). -/
def stepFaults (r : AxisRec) (d : Dir) : List FaultKind :=
  (if (ratchet r.cfg.policy d r.debt).overflow then [.ratchetOverflow] else [])
    ++ (if (ratchet r.cfg.policy d r.debt).applied && stepWraps r.cfg.cpr d r.pos then [.turnRange] else [])

/-- Whether the ratchet applies a raw step (R13). -/
def stepApplies (r : AxisRec) (d : Dir) : Bool := (ratchet r.cfg.policy d r.debt).applied

/-- Stages 2(a) to 2(c) of a raw step: its fields, the ratchet, and the move of an applied step (R15, R16). -/
def State.land (s : State) (a : AxisId) (t : Time) (d : Dir) : State :=
  let s' := (s.rawStep a d t).setDebt a (ratchet (s.axis a).cfg.policy d (s.axis a).debt).debt
  if stepApplies (s.axis a) d then s'.moveAxis a d else s'

/-- Stage 2 for one raw step, parts (a) to (e): an applied step is offered where it has landed (R15, R16, R103). -/
def State.oneStep (s : State) (a : AxisId) (t : Time) (d : Dir) : State :=
  if stepApplies (s.axis a) d then ((s.land a t d).offer a d t).checkStep a t d else s.land a t d

/-- Stage 2 of a sample: the raw steps one at a time, with the faults they raise, in order (R15, R18). -/
def State.allSteps (s : State) (a : AxisId) (t : Time) : List Dir → State × List FaultKind
  | [] => (s, [])
  | d :: rest =>
    let out := (s.oneStep a t d).allSteps a t rest
    (out.1, stepFaults (s.axis a) d ++ out.2)

/-! ### The whole sample -/

/-- Stage 3, if stage 1 found an index event (R15). -/
def State.indexStage (s : State) (a : AxisId) (t : Time) (index : Bool) : State :=
  if index then s.indexEvent a t else s

/-- Stage 4: the faults one by one (R18). -/
def State.faultStage (s : State) (a : AxisId) (t : Time) (faults : List FaultKind) : State :=
  faults.foldl (fun s k => s.sensorFault a t k) s

/-- Stages 2 to 4 with the raw steps still to come, the index event of stage 1 and the faults raised so far (R15, R18). -/
def State.runStages (s : State) (a : AxisId) (t : Time) (steps : List Dir) (index : Bool) (faults : List FaultKind) : State :=
  let out := s.allSteps a t steps
  (out.1.indexStage a t index).faultStage a t (faults ++ out.2)

/-- The filters of the three lines at a sample taken (R3). -/
def AxisRec.filtered (r : AxisRec) (rawA rawB rawZ : Level) : AxisRec :=
  { r with
    filtA := filterRun r.cfg.depth rawA r.filtA
    filtB := filterRun r.cfg.depth rawB r.filtB
    filtZ := filterRun r.cfg.depth rawZ r.filtZ }

/-- The code of an axis from its accepted levels (R7). -/
def AxisRec.code (r : AxisRec) : Code := codeOf r.cfg.mode r.filtA.accepted r.filtB.accepted r.filtZ.accepted

/-- A sample whose stages have begun (R15): what is still to come of it. -/
structure SampleRun where
  axis : AxisId
  /-- the axis record before the sample, which a capture of another cause may read (R126) -/
  before : AxisRec
  /-- the device time of the sample -/
  time : Time
  /-- the offer that is under way: the direction of its step and the firings still to come (R103, R104) -/
  offer : Option (Dir × List SlotId)
  /-- the raw steps still to come -/
  steps : List Dir
  /-- whether stage 1 found an index event -/
  index : Bool
  /-- the sensor faults raised so far, in order (R18) -/
  faults : List FaultKind
  deriving DecidableEq, Repr

/-- A sample taken, up to stage 1: the filters run; on a counting axis with a mode the Decoder acts, the code becomes the
previous code, and stages 2 to 4 are to come (R2, R7, R15). -/
def State.beginSample (s : State) (a : AxisId) (rawA rawB rawZ : Level) : State × Option SampleRun :=
  let s' := s.modAxis a (fun r => r.filtered rawA rawB rawZ)
  let r := s'.axis a
  if r.run = .counting ∧ r.cfg.mode ≠ .off then
    let dec := decodeSample r r.code
    (s'.modAxis a (fun r => { r with prevCode := some r.code }),
      some ⟨a, s.axis a, s.time, none, dec.steps, dec.index, dec.fault.toList⟩)
  else (s', none)

/-- One part of stage 2 of a sample under way: the next firing of its offer, or the end of that offer with stage 2(e), or the
next raw step up to its landing, where the set that fires is fixed (R15, R103, R104). -/
def State.advance (s : State) (r : SampleRun) : State × SampleRun :=
  match r.offer, r.steps with
  | some (d, i :: rest), _ => (s.fire r.axis r.time i, { r with offer := some (d, rest) })
  | some (d, []), _ => (s.checkStep r.axis r.time d, { r with offer := none })
  | none, d :: rest =>
    (s.land r.axis r.time d, { r with
      offer := if stepApplies (s.axis r.axis) d then some (d, (s.land r.axis r.time d).matching r.axis d) else none
      steps := rest
      faults := r.faults ++ stepFaults (s.axis r.axis) d })
  | none, [] => (s, r)

/-- The offer under way is brought to its end, with stage 2(e) of its step (R104). -/
def State.finishOffer (s : State) (r : SampleRun) : State :=
  match r.offer with
  | none => s
  | some (d, slots) => (slots.foldl (fun u i => u.fire r.axis r.time i) s).checkStep r.axis r.time d

/-- A sample under way is brought to the end of stage 4 (R15). -/
def State.finishSample (s : State) (r : SampleRun) : State :=
  (s.finishOffer r).runStages r.axis r.time r.steps r.index r.faults

/-- The sample divider in force in a CLKIN period of the present tick (R1). -/
def AxisRec.dividerIn (r : AxisRec) : ClkPhase → Nat
  | .first => r.dividers.first
  | .second => r.dividers.second

/-- Whether a sample is taken: the period is a sample instant of the axis, by the divider in force in it, and the window is
open (R1, R6). -/
def State.takesSample (s : State) (a : AxisId) (ph : ClkPhase) : Bool :=
  isSampleInstant ((s.axis a).dividerIn ph) s.time ph && s.windowOpen (s.axis a).cfg.window

/-! ### Quiet-window and capture inputs -/

/-- The filter of QW0 or QW1 at one CLKIN period (R5). -/
def State.runWindow (s : State) (w : WindowId) (raw : Level) : State :=
  { s with qw := upd s.qw w (filterRun Config.gateDepth raw (s.qw.get w)) }

/-- The filter of CAP0 or CAP1 at one CLKIN period (R120). -/
def State.filterCap (s : State) (c : CapId) (raw : Level) : State :=
  { s with cap := upd s.cap c (filterRun Config.gateDepth raw (s.cap.get c)) }

/-- The filter of a capture input, and the capture request of the edge if a new level is accepted (R120, R121). -/
def State.runCap (s : State) (c : CapId) (raw : Level) : State :=
  if (filterRun Config.gateDepth raw (s.cap.get c)).accepted = (s.cap.get c).accepted then s.filterCap c raw
  else (s.filterCap c raw).edgeCapture c (isHigh raw)

/-- QUIET_WINDOW_CHANGE (R5; entry 5). -/
def execQuietWindowChange (w : WindowId) (raw : Level) (s : State) : Host.Outcome State Fault Refusal :=
  .next (s.runWindow w raw)

/-- CAPTURE_EDGE (R120, R121; entry 5). -/
def execCaptureEdge (c : CapId) (raw : Level) (s : State) : Host.Outcome State Fault Refusal :=
  .next (s.runCap c raw)

/-- INPUT_FILTER_RUN (R120, R5; entry 5). -/
def execInputFilterRun (g : GateInput) (raw : Level) (s : State) : Host.Outcome State Fault Refusal :=
  .next (match g with
    | .qw w => s.runWindow w raw
    | .cap c => s.runCap c raw)

end Sys2Proof.Machine
end

