-- ==== Sys2Proof/Machine/Timers.lean ====
section
/-! DEFINITION. The family of timer events: STALL_EXPIRY, LEASE_EXPIRY, PULSE_END, DEVICE_TIME_TICK, and DEVICE_RESET (R22, R23, R38,
R73, R111, R160). -/

namespace Sys2Proof.Machine

/-! ### The three expiries -/

/-- A stall: the motion becomes STOPPED with MOTION_CHANGED, the last interval becomes absent, the timing run closes, the
timer stops (R38). -/
def State.takeStall (s : State) (a : AxisId) : State :=
  (s.modAxis a (fun r => { r with
      motion := .stopped
      lastInterval := none
      timingRun := .closed
      stall := none })).raiseSubscribed (subMotion a) (.motionChanged a .stopped)

/-- ENTRIES_CANCELLED to the former holder for one axis, if something was cancelled on it (R73 step 3). -/
def State.raiseCancelled (s : State) (p : PortId) (a : AxisId) (n : Nat) : State :=
  if n = 0 then s else s.raise p (.entriesCancelled a n)

/-- ENTRIES_CANCELLED for axes 0 to 3, in axis order, counted over slots as they stood in `before` (R73 step 3). -/
def State.raiseAllCancelled (s before : State) (p : PortId) (slots : List SlotId) : State :=
  (List.finRange 4).foldl (fun s a => s.raiseCancelled p a (before.countOn a slots)) s

/-- The expiry of a lease: the subject is freed, the former holder is told (R73). -/
def State.takeLease (s : State) (subj : Subject) : State :=
  match (s.claim subj).holder with
  | none => s
  | some p => ((s.freeSubject subj).raise p (.claimLost subj)).raiseAllCancelled s p (s.cancelledBy subj)

/-- STALL_EXPIRY: the stall timer expires if it is due at this tick (R23, R38; entry 4). -/
def State.stallEvent (s : State) (a : AxisId) : State := if isDue s.time (s.axis a).stall then s.takeStall a else s

/-- LEASE_EXPIRY: the claim expires if its lease is due at this tick (R23, R73; entry 4). -/
def State.leaseEvent (s : State) (subj : Subject) : State :=
  if isDue s.time (s.claim subj).expiry then s.takeLease subj else s

/-- PULSE_END: the pulse ends if its end is due at this tick (R23, R111; entry 4). -/
def State.pulseEvent (s : State) (l : LineId) : State := if isDue s.time (s.line l).pulseEnd then s.endPulse l else s

/-- STALL_EXPIRY (R38). -/
def execStallExpiry (a : AxisId) (s : State) : Host.Outcome State Fault Refusal := .next (s.stallEvent a)

/-- LEASE_EXPIRY (R73). -/
def execLeaseExpiry (subj : Subject) (s : State) : Host.Outcome State Fault Refusal := .next (s.leaseEvent subj)

/-- PULSE_END (R111). -/
def execPulseEnd (l : LineId) (s : State) : Host.Outcome State Fault Refusal := .next (s.pulseEvent l)

/-! ### The tick (entry 7) -/

/-- A timer of the part (R23). -/
inductive TimerId where
  | stall (a : AxisId)
  | lease (subj : Subject)
  | pulse (l : LineId)
  deriving DecidableEq, Repr

/-- All timers: stall timers, leases, pulses. -/
def allTimers : List TimerId :=
  (List.finRange 4).map .stall ++ allSubjects.map .lease ++ (List.finRange 8).map .pulse

/-- Number of a timer in the free value `Config.expiryRank`. -/
def timerNumber : TimerId → Nat
  | .stall a => a.1
  | .lease subj => 4 + (subjectIndex subj).1
  | .pulse l => 16 + l.1

/-- Whether a timer is due at this tick and has not been taken (R23). -/
def State.timerDue (s : State) : TimerId → Bool
  | .stall a => isDue s.time (s.axis a).stall
  | .lease subj => isDue s.time (s.claim subj).expiry
  | .pulse l => isDue s.time (s.line l).pulseEnd

/-- The expiry event of a timer. -/
def State.timerEvent (s : State) : TimerId → State
  | .stall a => s.stallEvent a
  | .lease subj => s.leaseEvent subj
  | .pulse l => s.pulseEvent l

/-- Insert a timer by the rank that draw `n` of the free value gives it. -/
def insertTimer (n : Nat) (x : TimerId) : List TimerId → List TimerId
  | [] => [x]
  | y :: rest =>
    if Config.expiryRank n (timerNumber x) ≤ Config.expiryRank n (timerNumber y) then x :: y :: rest
    else y :: insertTimer n x rest

/-- Timers in the order that draw `n` of the free value gives them. -/
def orderTimers (n : Nat) : List TimerId → List TimerId
  | [] => []
  | x :: rest => insertTimer n x (orderTimers n rest)

/-- The expiries that are still due at this tick are taken, in an order the spec does not give. -/
def State.takeDue (s : State) : State :=
  (orderTimers s.draws (allTimers.filter s.timerDue)).foldl State.timerEvent { s with draws := s.draws + 1 }

/-- In a new tick the divider of the configuration record is in force in both CLKIN periods (R1). -/
def AxisRec.newTick (r : AxisRec) : AxisRec := { r with dividers := ⟨r.cfg.divider, r.cfg.divider⟩ }

/-- DEVICE_TIME_TICK: device time grows by one, modulo 2^48 (R22); expiries due at the tick that ends and not yet taken
are taken first (R23; entry 7). -/
def State.tick (s : State) : State :=
  let s' := if allTimers.any s.timerDue then s.takeDue else s
  { s' with time := s'.time + 1#48, axes := s'.axes.map AxisRec.newTick }

/-- DEVICE_TIME_TICK (R22, R23). -/
def execDeviceTimeTick (s : State) : Host.Outcome State Fault Refusal := .next s.tick

/-! ### Device reset -/

/-- The exchange of a port when device reset ends: with CS_N low it waits until CS_N has been seen high (R160). -/
def exchangeAfterReset (csLow : Bool) : Exchange := if csLow then .waitHigh else .idle

/-- DEVICE_RESET: every block takes its reset values and device time restarts from 0 (R22, R25, R43, R79, R80, R119, R140,
R160, R172); the waiting commands and the model's own count of draws are kept (entries 7, 8). -/
def State.deviceReset (s : State) (csLow : PortMask) : State :=
  { State.reset with
    pending := s.pending
    draws := s.draws
    ports := Vector.ofFn (fun p => { PortRec.reset with exchange := exchangeAfterReset (hasPort csLow p) }) }

/-- DEVICE_RESET (R22). -/
def execDeviceReset (csLow : PortMask) (s : State) : Host.Outcome State Fault Refusal := .next (s.deviceReset csLow)

end Sys2Proof.Machine
end

