-- ==== Sys2Proof/Machine/Operands.lean ====
section
/-! DEFINITION. Taking a request (R153): the request at the head of a port's queue, its arguments, and the joining of its response.
Every request command is one `takeRequest` of its reply. -/

namespace Sys2Proof.Machine

/-- What a command answers: the body of its response, and for an OK response to REPEAT_FRAME the content it repeats. -/
structure Reply where
  body : List Byte
  repeats : Option FrameContent
  deriving DecidableEq, Repr

/-- An OK reply with its data (R176). -/
def Reply.ok (data : List Byte) : Reply := ⟨okBody data, none⟩

/-- A refusal with its data (R176). -/
def Reply.refused (c : ResultCode) (data : List Byte := []) : Reply := ⟨refusal c data, none⟩

/-- The head of the request queue of `p` leaves it. -/
def State.popRequest (s : State) (p : PortId) : State := s.modPort p (fun r => { r with requests := r.requests.tail })

/-- A response joins the tail of the response queue of `p` (R153). -/
def State.pushResponse (s : State) (p : PortId) (tag : Byte) (rep : Reply) : State :=
  s.modPort p (fun r => { r with responses := r.responses ++ [⟨tag, rep.body, rep.repeats⟩] })

/-- One event: the request of command `c` at the head of the queue of `p` leaves the queue, has its effect, and its response
joins the response queue (R153). With another head, or none, no such request is taken and nothing changes (entry 3). -/
def State.takeRequest (s : State) (p : PortId) (c : Cmd) (act : State → List Byte → State × Reply) : State :=
  match (s.port p).requests with
  | .request tag cmd args :: _ =>
    if Cmd.ofCode cmd = some c then
      ((act (s.popRequest p) args).1).pushResponse p tag (act (s.popRequest p) args).2
    else s
  | _ => s

/-- A command whose argument bytes pass the form check goes on with them; otherwise BAD_ARGUMENT, and nothing changes
(R153, R173). -/
def withArgs {α : Type} (parse : List Byte → Option α) (act : State → α → State × Reply) (s : State) (args : List Byte) :
    State × Reply :=
  match parse args with
  | none => (s, .refused .badArgument)
  | some x => act s x

/-- Step 2 of R26: the port holds the claim on the axis, else NOT_HOLDER. -/
def needAxis (p : PortId) (a : AxisId) (act : State → State × Reply) (s : State) : State × Reply :=
  if s.holdsClaim p (.axis a) then act s else (s, .refused .notHolder)

/-- Step 3 of R26: the axis is in the state the command requires, else WRONG_STATE. -/
def needState (cond : State → Bool) (act : State → State × Reply) (s : State) : State × Reply :=
  if cond s then act s else (s, .refused .wrongState)

/-- Step 4 of R26: the values are in range, else BAD_ARGUMENT. -/
def needValues (cond : State → Bool) (act : State → State × Reply) (s : State) : State × Reply :=
  if cond s then act s else (s, .refused .badArgument)

/-- An accepted axis command: its effect, and the renewal of the axis claim (R26, R72). -/
def acceptAxis (a : AxisId) (act : State → State) (data : State → List Byte) (s : State) : State × Reply :=
  ((act s).renewByUse (.axis a), .ok (data (act s)))

end Sys2Proof.Machine
end

