-- ==== Sys2Proof/Machine/Ports.lean ====
section
/-! DEFINITION. The family of host-port events: exchanges (CS_N_FALL, CS_N_RISE), damaged and unknown requests, the port commands and
READ_TIME (chapter Host Ports; R24, R162). -/

namespace Sys2Proof.Machine

/-! ### The fall of CS_N -/

/-- The frame sent first after device reset: the IDLE frame with STATUS 0x48 and number 0 (R160, R174). -/
def DeviceFrame.afterReset : DeviceFrame := ⟨0x48#8, 0#8, .idle, 0#8, []⟩

/-- The frame that the queues give: the response at the head, else the notice at the head, else an IDLE frame, with STATUS and
frame number as they stand (R142, R144). -/
def PortRec.queued (r : PortRec) : DeviceFrame :=
  match r.responses, r.notices with
  | x :: _, _ => ⟨r.status, r.frameNo, .response, x.tag, x.body⟩
  | [], e :: _ => ⟨r.status, r.frameNo, .notice, noticeKindByte e.notice.kind, noticeBody e.notice⟩
  | [], [] => ⟨r.status, r.frameNo, .idle, 0, []⟩

/-- Whether a fall is the case in which the spec's rules disagree: the first one after device reset, with a notice to select
(R142, R160; entry 17). -/
def PortRec.disputed (r : PortRec) : Bool := r.fresh && r.alert && r.responses.isEmpty

/-- The IDLE frame of R160 where a notice waits; its ALERT flag is a free value (R170, R174; entry 17). -/
def PortRec.firstIdle (r : PortRec) : DeviceFrame :=
  { DeviceFrame.afterReset with
    status := if Config.firstFrameAlert then r.status else DeviceFrame.afterReset.status }

/-- The frame selected at a fall: what the queues give (R142), which at a first fall with no notice waiting is the IDLE frame
of R160 and R174. Where a notice waits at the first fall, a free value decides between that notice (R142, R166) and an IDLE
frame (R160, R174; entry 17). -/
def PortRec.select (r : PortRec) : DeviceFrame :=
  if r.disputed && Config.firstFrameIdle then r.firstIdle else r.queued

/-- The fall of CS_N; it opens an exchange when CS_N was high (R141, R142; entry 4). -/
def PortRec.fall (r : PortRec) : PortRec :=
  match r.exchange with
  | .idle => { r with exchange := .active r.select false, fresh := false }
  | _ => r

/-- CS_N_FALL (R142). -/
def execCsNFall (p : PortId) (s : State) : Host.Outcome State Fault Refusal := .next (s.modPort p PortRec.fall)

/-! ### The rise of CS_N -/

/-- Whether the frame of an exchange is delivered: a response or notice frame, not voided, every byte of it clocked
(R145, R148). -/
def isDelivered (f : DeviceFrame) (voided : Bool) (clocked : Nat) : Bool :=
  decide (f.kind ≠ .idle) && !voided && decide (f.bytes.length ≤ clocked)

/-- The content kept of a delivered frame: what an OK response to REPEAT_FRAME carries, else the frame's own (R157). -/
def keptContent (f : DeviceFrame) (repeats : Option FrameContent) : FrameContent :=
  match repeats with
  | some c => c
  | none => ⟨f.kind, f.tag, f.body⟩

/-- The mark of the response at the head of the queue, if the frame sent is a response (R157). -/
def PortRec.headRepeats (r : PortRec) (f : DeviceFrame) : Option FrameContent :=
  if f.kind = .response then (r.responses.head?).bind Response.repeats else none

/-- The notice queue after its head is delivered: the head's late part joins the tail (R168). -/
def settleDelivered : List NoticeEntry → List NoticeEntry
  | [] => []
  | e :: rest =>
    match e.late with
    | none => rest
    | some n => rest ++ [⟨n, none⟩]

/-- The notice queue after its head was sent and not delivered: the late part is folded into the head (R168). -/
def settleUndelivered : List NoticeEntry → List NoticeEntry
  | [] => []
  | e :: rest =>
    match e.late with
    | none => e :: rest
    | some n => ⟨mergeNotice e.notice n, none⟩ :: rest

/-- The delivery of the frame sent (R146, R168). -/
def PortRec.deliver (r : PortRec) (f : DeviceFrame) : PortRec :=
  { r with
    responses := if f.kind = .response then r.responses.tail else r.responses
    notices := if f.kind = .notice then settleDelivered r.notices else r.notices
    lastDelivered := some ⟨f.frameNo, keptContent f (r.headRepeats f)⟩
    frameNo := r.frameNo + 1#8
    dropped := r.dropped && !reportsDropped f.status
    resetSeen := r.resetSeen && !reportsReset f.status }

/-- The failure to deliver the frame sent (R146, R147, R168). -/
def PortRec.undelivered (r : PortRec) (f : DeviceFrame) (voided : Bool) : PortRec :=
  { r with notices := if f.kind = .notice ∧ voided = false then settleUndelivered r.notices else r.notices }

/-- A frame judged at the rise joins the request queue if there is room; otherwise it is discarded and DROPPED is set
(R150). -/
def PortRec.joinRequest (r : PortRec) (e : RequestEntry) : PortRec :=
  if r.waiting < Config.queueRoom then { r with requests := r.requests ++ [e] } else { r with dropped := true }

/-- The request of the exchange, judged on its own bytes (R149, R150). -/
def PortRec.judge (r : PortRec) (received : List Byte) : PortRec :=
  match judgeRequest received with
  | .none => r
  | .damaged detail tag => r.joinRequest (.damaged detail tag)
  | .request tag cmd args => r.joinRequest (.request tag cmd args)

/-- The rise of CS_N: first the frame sent is judged, then the request received (R146). After a device reset with CS_N low
it only shows CS_N high (R160); with CS_N high there is no rise (entry 4). -/
def PortRec.rise (r : PortRec) (sdi : List Bool) : PortRec :=
  match r.exchange with
  | .idle => r
  | .waitHigh => { r with exchange := .idle }
  | .active f voided =>
    let r' := if isDelivered f voided (bytesOfBits sdi).length then r.deliver f else r.undelivered f voided
    { r'.judge (bytesOfBits sdi) with exchange := .idle }

/-- CS_N_RISE (R146, R149, R150). -/
def execCsNRise (p : PortId) (sdi : List Bool) (s : State) : Host.Outcome State Fault Refusal :=
  .next (s.modPort p (fun r => r.rise sdi))

/-! ### Requests that name no command -/

/-- FRAME_ERROR: the damaged-frame entry at the head is answered with its detail and tag (R153). -/
def execFrameError (p : PortId) (s : State) : Host.Outcome State Fault Refusal :=
  .next (match (s.port p).requests with
    | .damaged detail tag :: _ => (s.popRequest p).pushResponse p tag (.refused .frameError [detailByte detail])
    | _ => s)

/-- UNKNOWN_COMMAND: a request at the head whose CMD names no command (R153). -/
def execUnknownCommand (p : PortId) (s : State) : Host.Outcome State Fault Refusal :=
  .next (match (s.port p).requests with
    | .request tag cmd _ :: _ =>
      if Cmd.ofCode cmd = none then (s.popRequest p).pushResponse p tag (.refused .unknownCommand) else s
    | _ => s)

/-! ### Port commands -/

/-- NOP: OK, nothing changes (R155). -/
def nopReply (s : State) (args : List Byte) : State × Reply := withArgs parseNothing (fun s _ => (s, .ok [])) s args

/-- NOP (R155). -/
def execNop (p : PortId) (s : State) : Host.Outcome State Fault Refusal := .next (s.takeRequest p .nop nopReply)

/-- The data of PORT_STATUS (Table 10.8), from the port record as it stands before the response joins (R156). -/
def portStatusData (r : PortRec) : List Byte :=
  [byte r.requests.length, byte r.responses.length, byte r.notices.length] ++ beBytes 2 r.subs.toNat
    ++ [edgesByte (r.capSubs.get 0), edgesByte (r.capSubs.get 1), r.frameNo,
        byte (flagBit 1 r.lastDelivered.isSome + flagBit 32 r.dropped + flagBit 64 r.resetSeen)]
    ++ optBytes (fun k => [k.number]) r.lastDelivered

/-- PORT_STATUS (R156). -/
def portStatusReply (p : PortId) (s : State) (args : List Byte) : State × Reply :=
  withArgs parseNothing (fun s _ => (s, .ok (portStatusData (s.port p)))) s args

/-- PORT_STATUS (R156). -/
def execPortStatus (p : PortId) (s : State) : Host.Outcome State Fault Refusal :=
  .next (s.takeRequest p .portStatus (portStatusReply p))

/-- An exchange of a port that is reset is voided (R148). -/
def Exchange.void : Exchange → Exchange
  | .active f _ => .active f true
  | x => x

/-- The Host Port Unit's part of PORT_RESET (R158 steps 1 and 5, R171) and the port's capture subscriptions (R138). -/
def PortRec.clear (r : PortRec) : PortRec where
  requests := []
  responses := []
  notices := []
  frameNo := 0#8
  lastDelivered := none
  dropped := false
  resetSeen := true
  exchange := r.exchange.void
  subs := 0#12
  capSubs := Vector.replicate 2 .none
  fresh := r.fresh

/-- The Claim Table's part of PORT_RESET: every subject the port holds is freed, in subject order (R78). -/
def State.freeSubjectsOf (s : State) (p : PortId) : State :=
  (allSubjects.filter (s.holdsClaim p)).foldl State.freeSubject s

/-- The Compare Scheduler's part of PORT_RESET: every entry the port owns is freed (R101). -/
def State.freeEntriesOf (s : State) (p : PortId) : State :=
  s.freeEntries (s.slotsWhere (fun e => decide (e.owner = p)))

/-- PORT_RESET, in the order of R158; its OK response then joins the emptied queue. -/
def State.resetPort (s : State) (p : PortId) : State :=
  (((s.modPort p PortRec.clear).leaveAllSnaps p).freeSubjectsOf p).freeEntriesOf p

/-- PORT_RESET (R158). -/
def portResetReply (p : PortId) (s : State) (args : List Byte) : State × Reply :=
  withArgs parseNothing (fun s _ => (s.resetPort p, .ok [])) s args

/-- PORT_RESET (R158). -/
def execPortReset (p : PortId) (s : State) : Host.Outcome State Fault Refusal :=
  .next (s.takeRequest p .portReset (portResetReply p))

/-- The OK reply of REPEAT_FRAME: the kept KIND, TAG and body (R157, Table 10.8). -/
def repeatReply (c : FrameContent) : Reply := ⟨okBody (kindByte c.kind :: c.tag :: c.body), some c⟩

/-- REPEAT_FRAME: the kept frame if its number is `n`, else NOT_FOUND (R157). -/
def repeatFrameReply (p : PortId) (s : State) (args : List Byte) : State × Reply :=
  withArgs parseByte (fun s n =>
    match (s.port p).lastDelivered with
    | none => (s, .refused .notFound)
    | some k => (s, if k.number = n then repeatReply k.content else .refused .notFound)) s args

/-- REPEAT_FRAME (R157). -/
def execRepeatFrame (p : PortId) (s : State) : Host.Outcome State Fault Refusal :=
  .next (s.takeRequest p .repeatFrame (repeatFrameReply p))

/-- SUBSCRIBE: the mask given replaces the mask in force (R162). -/
def subscribeReply (p : PortId) (s : State) (args : List Byte) : State × Reply :=
  withArgs parseSubscribe (fun s m => (s.modPort p (fun r => { r with subs := m }), .ok (beBytes 2 m.toNat))) s args

/-- SUBSCRIBE (R162). -/
def execSubscribe (p : PortId) (s : State) : Host.Outcome State Fault Refusal :=
  .next (s.takeRequest p .subscribe (subscribeReply p))

/-- READ_TIME: the device time at which the request is taken (R24). -/
def readTimeReply (s : State) (args : List Byte) : State × Reply :=
  withArgs parseNothing (fun s _ => (s, .ok (timeBytes s.time))) s args

/-- READ_TIME (R24). -/
def execReadTime (p : PortId) (s : State) : Host.Outcome State Fault Refusal :=
  .next (s.takeRequest p .readTime readTimeReply)

end Sys2Proof.Machine
end

