-- ==== Sys2Proof/Machine/AxisCommands.lean ====
section
/-! DEFINITION. The family of axis and reference commands: SET_AXIS_CONFIG, START_AXIS, STOP_AXIS, READ_AXIS, CLEAR_FAULTS
(chapter Axis Records and Device Time), ARM_REFERENCE, SET_REFERENCE, DROP_REFERENCE (chapter Referencing). -/

namespace Sys2Proof.Machine

/-- Whether an axis is COUNTING. -/
def State.isCounting (s : State) (a : AxisId) : Bool := decide ((s.axis a).run = .counting)

/-! ### SET_AXIS_CONFIG -/

/-- A run count cleared when the filter settings change (R4). -/
def FilterRec.restart (f : FilterRec) : FilterRec := { f with run := 0 }

/-- Whether a new record changes the mode or the CPR (R28). -/
def recounts (old new : AxisConfig) : Bool := decide (old.mode ≠ new.mode) || decide (old.cpr ≠ new.cpr)

/-- Whether a new record changes the sample divider, the filter depth or the quiet window (R4). -/
def refilters (old new : AxisConfig) : Bool :=
  decide (old.divider ≠ new.divider) || decide (old.depth ≠ new.depth) || decide (old.window ≠ new.window)

/-- Whether a new record clears the ratchet debt: mode, CPR or direction policy changes (R14). -/
def clearsDebt (old new : AxisConfig) : Bool := recounts old new || decide (old.policy ≠ new.policy)

/-- A divider stored in the given half of a tick is in force from the next CLKIN period on (R1). -/
def TickDividers.replace (x : TickDividers) (half : ClkPhase) (k : Nat) : TickDividers :=
  match half with
  | .first => { x with second := k }
  | .second => x

/-- The new record, stored in the given half of the tick, with what R4 and R14 clear. -/
def AxisRec.configure (r : AxisRec) (half : ClkPhase) (c : AxisConfig) : AxisRec :=
  { r with
    cfg := c
    dividers := r.dividers.replace half c.divider
    filtA := if refilters r.cfg c then r.filtA.restart else r.filtA
    filtB := if refilters r.cfg c then r.filtB.restart else r.filtB
    filtZ := if refilters r.cfg c then r.filtZ.restart else r.filtZ
    debt := if clearsDebt r.cfg c then 0 else r.debt }

/-- Items 2 and 3 of R28. -/
def AxisRec.unplace (r : AxisRec) : AxisRec :=
  { r with pos := ⟨0, 0⟩, sinceIndex := 0, refOffset := 0, refTurns := 0, lastDrift := none }

/-- How many of the listed slots hold an entry of port `p` (R98). -/
def State.countOf (s : State) (p : PortId) (slots : List SlotId) : Nat :=
  (slots.filter (fun i =>
    match (s.slot i).entry with
    | some e => decide (e.owner = p)
    | none => false)).length

/-- The cancellation of every entry on an axis, with ENTRIES_CANCELLED to each owner that lost entries (R98, R100). -/
def State.cancelAxisEntries (s : State) (a : AxisId) : State :=
  let slots := s.slotsWhere (fun e => decide (e.axis = a))
  (List.finRange 3).foldl (fun s' p => s'.raiseCancelled p a (s.countOf p slots)) (s.freeEntries slots)

/-- The effect of an accepted SET_AXIS_CONFIG (R28, R29). -/
def State.configure (s : State) (a : AxisId) (half : ClkPhase) (c : AxisConfig) : State :=
  if recounts (s.axis a).cfg c then
    (((s.modAxis a (fun r => (r.configure half c).unplace)).changeReference a .unreferenced (s.axis a).epoch).cancelAxisEntries a)
  else s.modAxis a (fun r => r.configure half c)

/-- SET_AXIS_CONFIG (R26 to R29). -/
def setAxisConfigReply (p : PortId) (half : ClkPhase) (s : State) (args : List Byte) : State × Reply :=
  withArgs parseConfig (fun s x =>
    needAxis p x.1 (needState (fun s => !s.isCounting x.1) (needValues (fun _ => configAccepted x.2)
      (acceptAxis x.1 (fun s => s.configure x.1 half x.2) (fun _ => [])))) s) s args

/-- SET_AXIS_CONFIG, taken in the given half of the tick (R28, R1; entry 16). -/
def execSetAxisConfig (taking : Taking) (s : State) : Host.Outcome State Fault Refusal :=
  .next (s.takeRequest taking.port .setAxisConfig (setAxisConfigReply taking.port taking.half))

/-! ### START_AXIS and STOP_AXIS -/

/-- The fields START_AXIS sets (R31). -/
def AxisRec.start (r : AxisRec) : AxisRec :=
  { r with
    run := .counting
    prevCode := none
    lastDir := .none
    motion := .stopped
    lastInterval := none
    timingRun := .closed
    stall := none }

/-- The effect of an accepted START_AXIS (R31, R37). -/
def State.startAxis (s : State) (a : AxisId) : State :=
  if (s.axis a).motion = .stopped then s.modAxis a AxisRec.start
  else (s.modAxis a AxisRec.start).raiseSubscribed (subMotion a) (.motionChanged a .stopped)

/-- START_AXIS (R26, R31). -/
def startAxisReply (p : PortId) (s : State) (args : List Byte) : State × Reply :=
  withArgs parseAxis (fun s a =>
    needAxis p a (needState (fun s => !s.isCounting a && decide ((s.axis a).cfg.mode ≠ .off))
      (acceptAxis a (fun s => s.startAxis a) (fun _ => []))) s) s args

/-- START_AXIS (R31). -/
def execStartAxis (p : PortId) (s : State) : Host.Outcome State Fault Refusal :=
  .next (s.takeRequest p .startAxis (startAxisReply p))

/-- Reference state after STOP_AXIS (Table 2.4). -/
def afterStop : RefState → RefState
  | .referenced => .lost
  | .suspect => .lost
  | .seeking => .unreferenced
  | .unreferenced => .unreferenced
  | .lost => .lost

/-- The effect of an accepted STOP_AXIS (R32); a DISABLED axis has no previous code (R7; entry 10). -/
def State.stopAxis (s : State) (a : AxisId) : State :=
  (s.modAxis a (fun r => { r with run := .disabled, prevCode := none, stall := none })).changeReference a
    (afterStop (s.axis a).refState) (s.axis a).epoch

/-- STOP_AXIS (R26, R32). -/
def stopAxisReply (p : PortId) (s : State) (args : List Byte) : State × Reply :=
  withArgs parseAxis (fun s a =>
    needAxis p a (needState (fun s => s.isCounting a) (acceptAxis a (fun s => s.stopAxis a) (fun _ => []))) s) s args

/-- STOP_AXIS (R32). -/
def execStopAxis (p : PortId) (s : State) : Host.Outcome State Fault Refusal :=
  .next (s.takeRequest p .stopAxis (stopAxisReply p))

/-! ### READ_AXIS and CLEAR_FAULTS -/

/-- The configuration, in the order of SET_AXIS_CONFIG (Table 10.10). -/
def configBytes (c : AxisConfig) : List Byte :=
  [modeByte c.mode] ++ beBytes 3 c.cpr
    ++ [byte c.divider, byte c.depth, windowByte c.window, policyByte c.policy, polarityByte c.polarity, byte c.tolerance,
        correctionByte c.correction]
    ++ beBytes 2 c.stallMs

/-- First fault kind and time (Table 10.10). -/
def firstFaultBytes (x : FaultKind × Time) : List Byte := byte (faultBit x.1) :: timeBytes x.2

/-- The axis record of the READ_AXIS response (Table 10.10, R42). -/
def axisRecordBytes (now : Time) (a : AxisId) (r : AxisRec) : List Byte :=
  timeBytes now ++ [byte a.1]
    ++ [byte (flagBit 1 r.lastStep.isSome + flagBit 2 r.lastInterval.isSome + flagBit 4 r.faults.first.isSome
          + flagBit 8 r.lastDrift.isSome)]
    ++ configBytes r.cfg ++ [runByte r.run] ++ positionBytes r.pos
    ++ [byte (lastDirCode r.lastDir), byte (motionCode r.motion)]
    ++ optBytes timeBytes r.lastStep ++ optBytes (beBytes 4) r.lastInterval ++ beBytes 2 r.debt
    ++ [byte r.faults.set.toNat] ++ optBytes firstFaultBytes r.faults.first ++ [byte r.faults.count]
    ++ [byte (refStateCode r.refState)] ++ beBytes 2 r.epoch.toNat ++ beBytes 3 r.refOffset ++ beSigned 3 r.refTurns
    ++ optBytes (beSigned 3) r.lastDrift ++ beSigned 4 r.sinceIndex

/-- READ_AXIS (R42). -/
def readAxisReply (s : State) (args : List Byte) : State × Reply :=
  withArgs parseAxis (fun s a => (s, .ok (axisRecordBytes s.time a (s.axis a)))) s args

/-- READ_AXIS (R42). -/
def execReadAxis (p : PortId) (s : State) : Host.Outcome State Fault Refusal :=
  .next (s.takeRequest p .readAxis readAxisReply)

/-- CLEAR_FAULTS: the fault record becomes empty (R41). -/
def State.clearFaults (s : State) (a : AxisId) : State := s.modAxis a (fun r => { r with faults := FaultRec.reset })

/-- CLEAR_FAULTS (R26, R41). -/
def clearFaultsReply (p : PortId) (s : State) (args : List Byte) : State × Reply :=
  withArgs parseAxis (fun s a => needAxis p a (acceptAxis a (fun s => s.clearFaults a) (fun _ => [])) s) s args

/-- CLEAR_FAULTS (R41). -/
def execClearFaults (p : PortId) (s : State) : Host.Outcome State Fault Refusal :=
  .next (s.takeRequest p .clearFaults (clearFaultsReply p))

/-! ### Reference commands -/

/-- The effect of an accepted ARM_REFERENCE (R48, R49). -/
def State.armReference (s : State) (a : AxisId) (offset : Nat) (turns : Int) : State :=
  (s.modAxis a (fun r => { r with refOffset := offset, refTurns := turns })).changeReference a .seeking (s.axis a).epoch

/-- ARM_REFERENCE (R47, R48). -/
def armReferenceReply (p : PortId) (s : State) (args : List Byte) : State × Reply :=
  withArgs parseArm (fun s x =>
    needAxis p x.1 (needState (fun s => s.isCounting x.1 && decide ((s.axis x.1).cfg.mode = .quadIndex))
      (needValues (fun s => decide (x.2.1 < (s.axis x.1).cfg.cpr))
        (acceptAxis x.1 (fun s => s.armReference x.1 x.2.1 x.2.2) (fun _ => [])))) s) s args

/-- ARM_REFERENCE (R48). -/
def execArmReference (p : PortId) (s : State) : Host.Outcome State Fault Refusal :=
  .next (s.takeRequest p .armReference (armReferenceReply p))

/-- SET_REFERENCE: an establishment at the given position; the response carries the new epoch (R47, R50). -/
def setReferenceReply (p : PortId) (s : State) (args : List Byte) : State × Reply :=
  withArgs parseSetReference (fun s x =>
    needAxis p x.1 (needState (fun s => s.isCounting x.1)
      (needValues (fun s => decide (x.2.count < (s.axis x.1).cfg.cpr))
        (acceptAxis x.1 (fun s => s.establish x.1 x.2) (fun s => beBytes 2 (s.axis x.1).epoch.toNat)))) s) s args

/-- SET_REFERENCE (R50). -/
def execSetReference (p : PortId) (s : State) : Host.Outcome State Fault Refusal :=
  .next (s.takeRequest p .setReference (setReferenceReply p))

/-- DROP_REFERENCE (R47, R51). -/
def dropReferenceReply (p : PortId) (s : State) (args : List Byte) : State × Reply :=
  withArgs parseAxis (fun s a =>
    needAxis p a (needState (fun s => s.isCounting a)
      (acceptAxis a (fun s => s.changeReference a .unreferenced (s.axis a).epoch) (fun _ => []))) s) s args

/-- DROP_REFERENCE (R51). -/
def execDropReference (p : PortId) (s : State) : Host.Outcome State Fault Refusal :=
  .next (s.takeRequest p .dropReference (dropReferenceReply p))

end Sys2Proof.Machine
end

