-- ==== Sys2Proof/Machine/ClaimCommands.lean ====
section
/-! DEFINITION. The family of claim commands: CLAIM, RELEASE, READ_CLAIMS (chapter Claims and Leases), and of line commands:
DRIVE_LINE, READ_LINES (chapter Firing and Trigger Lines). -/

namespace Sys2Proof.Machine

/-! ### CLAIM and RELEASE -/

/-- The lease and the expiry time in an OK response to CLAIM; the expiry time is left out when the lease is 0 (R66). -/
def claimData (now : Time) (lease : Nat) : List Byte :=
  beBytes 2 lease ++ optBytes timeBytes (leaseExpiryTime now lease)

/-- The remaining lease in whole ms, rounded up (R69). -/
def remainingMs (now expiry : Time) : Nat := (ticksFrom now expiry + (Config.ticksPerMs - 1)) / Config.ticksPerMs

/-- The data of HELD_BY_OTHER: the holder, and the remaining lease if there is one (R69, Table 10.9). -/
def heldByOtherData (now : Time) (holder : PortId) (expiry : Option Time) : List Byte :=
  [byte holder.1, byte (flagBit 1 expiry.isSome)] ++ optBytes (fun e => beBytes 2 (remainingMs now e)) expiry

/-- Step 3 of R66 and the grant or renewal that follows (R66 to R69). -/
def claimEffect (p : PortId) (s : State) (subj : Subject) (lease : Nat) (idle : Level) : State × Reply :=
  match (s.claim subj).holder with
  | none => (s.grant p subj lease idle, .ok (claimData s.time lease))
  | some q =>
    if q = p then (s.renew p subj lease idle, .ok (claimData s.time lease))
    else (s, .refused .heldByOther (heldByOtherData s.time q (s.claim subj).expiry))

/-- CLAIM (R66). -/
def claimReply (p : PortId) (s : State) (args : List Byte) : State × Reply :=
  withArgs parseClaim (fun s x =>
    needValues (fun _ => leaseAccepted x.2.1) (fun s => claimEffect p s x.1 x.2.1 x.2.2) s) s args

/-- CLAIM (R66). -/
def execClaim (p : PortId) (s : State) : Host.Outcome State Fault Refusal := .next (s.takeRequest p .claim (claimReply p))

/-- RELEASE: the holder frees the subject and is told the number of entries cancelled; anyone else is refused with
NOT_HOLDER (R70). -/
def releaseReply (p : PortId) (s : State) (args : List Byte) : State × Reply :=
  withArgs parseSubject (fun s subj =>
    if s.holdsClaim p subj then (s.freeSubject subj, .ok [byte (s.cancelledBy subj).length])
    else (s, .refused .notHolder)) s args

/-- RELEASE (R70). -/
def execRelease (p : PortId) (s : State) : Host.Outcome State Fault Refusal :=
  .next (s.takeRequest p .release (releaseReply p))

/-! ### READ_CLAIMS -/

/-- A holder in a packed byte: P0 0, P1 1, P2 2, none 3 (Table 10.13). -/
def holderCode : Option PortId → Nat
  | none => 3
  | some p => p.1

/-- A claim record (Table 10.13): the time remaining is present when the holder is not none and the lease is non-zero. -/
def claimRecordBytes (now : Time) (c : ClaimRec) : List Byte :=
  byte (holderCode c.holder + flagBit 16 (isHigh c.idle)) :: beBytes 2 c.lease
    ++ optBytes (fun e => beBytes 4 (ticksFrom now e)) (if c.holder.isSome ∧ c.lease ≠ 0 then c.expiry else none)

/-- The twelve claim records in subject order. -/
def State.claimRecords (s : State) : List Byte :=
  allSubjects.flatMap (fun subj => claimRecordBytes s.time (s.claim subj))

/-- READ_CLAIMS (R77). -/
def readClaimsReply (s : State) (args : List Byte) : State × Reply :=
  withArgs parseNothing (fun s _ => (s, .ok (timeBytes s.time ++ s.claimRecords))) s args

/-- READ_CLAIMS (R77). -/
def execReadClaims (p : PortId) (s : State) : Host.Outcome State Fault Refusal :=
  .next (s.takeRequest p .readClaims readClaimsReply)

/-! ### DRIVE_LINE and READ_LINES -/

/-- A line record (Table 10.14). -/
def State.lineRecordBytes (s : State) (l : LineId) : List Byte :=
  let c := s.claim (.line l)
  let r := s.line l
  byte (holderCode c.holder + flagBit 16 (isHigh c.idle) + flagBit 32 (isHigh r.level) + flagBit 128 r.pulseEnd.isSome)
    :: beBytes 4 r.activations.toNat ++ optBytes (fun e => beBytes 4 (ticksFrom s.time e)) r.pulseEnd

/-- The line action of a drive (R115). -/
def driveAction (d : Drive) (width : Nat) : LineAction :=
  match d with
  | .active => .setActive
  | .idle => .setIdle
  | .pulse => .pulse width

/-- An accepted DRIVE_LINE: the action, then the renewal of the line claim; the response carries the line record as the
action left it (R115, R72). -/
def driveEffect (l : LineId) (d : Drive) (width : Nat) (s : State) : State × Reply :=
  ((s.lineAction l s.time (driveAction d width)).renewByUse (.line l),
    .ok ((s.lineAction l s.time (driveAction d width)).lineRecordBytes l))

/-- DRIVE_LINE (R115). -/
def driveLineReply (p : PortId) (s : State) (args : List Byte) : State × Reply :=
  withArgs parseDrive (fun s x =>
    if s.holdsClaim p (.line x.1) then needValues (fun _ => driveAccepted x.2.1 x.2.2) (driveEffect x.1 x.2.1 x.2.2) s
    else (s, .refused .notHolder)) s args

/-- DRIVE_LINE (R115). -/
def execDriveLine (p : PortId) (s : State) : Host.Outcome State Fault Refusal :=
  .next (s.takeRequest p .driveLine (driveLineReply p))

/-- READ_LINES (R116). -/
def readLinesReply (s : State) (args : List Byte) : State × Reply :=
  withArgs parseNothing (fun s _ => (s, .ok (timeBytes s.time ++ (List.finRange 8).flatMap s.lineRecordBytes))) s args

/-- READ_LINES (R116). -/
def execReadLines (p : PortId) (s : State) : Host.Outcome State Fault Refusal :=
  .next (s.takeRequest p .readLines readLinesReply)

end Sys2Proof.Machine
end

