-- ==== Sys2Proof/Machine/CompareCommands.lean ====
section
/-! DEFINITION. The family of compare commands: BOOK, CANCEL, CANCEL_AXIS, READ_ENTRY, LIST_ENTRIES (chapter The Compare
Schedule). -/

namespace Sys2Proof.Machine

/-! ### BOOK -/

/-- The action of an entry with the fields present for it (R89 step 2). -/
def bookAction (b : BookArgs) : EntryAction :=
  match b.action with
  | .noticeOnly => .noticeOnly
  | .pulse => .pulse b.line b.width
  | .setActive => .setActive b.line
  | .setIdle => .setIdle b.line
  | .toggle => .toggle b.line
  | .capture => .capture b.share

/-- The state a new entry takes (R89 step 4). -/
def State.bookState (s : State) (a : AxisId) : EntryState :=
  if (s.axis a).refState = .referenced then .armed else .held

/-- The new entry (R89 steps 2 to 4). -/
def State.newEntry (s : State) (p : PortId) (b : BookArgs) (serial : Nat) : Entry where
  owner := p
  axis := b.axis
  target := b.target
  qual := b.qual
  action := bookAction b
  notify := b.notify
  periodic := if b.interval = 0 then none else some ⟨b.interval, b.repeats⟩
  state := s.bookState b.axis
  fireCount := 0
  serial := serial

/-- The owner's count grows by one (R81). -/
def State.countBooked (s : State) (p : PortId) : State := { s with booked := upd s.booked p (s.booked.get p + 1) }

/-- The entry is placed in slot `i` with the axis's next serial, and h_p grows by one (R89). -/
def State.place (s : State) (p : PortId) (b : BookArgs) (i : SlotId) : State :=
  ((s.takeSerial b.axis).1.putEntry i (s.newEntry p b (s.takeSerial b.axis).2)).countBooked p

/-- For an action that names a line, the accepted BOOK renews the line claim (R89, R72). -/
def State.renewBooked (s : State) (b : BookArgs) : State :=
  if b.action.namesLine then s.renewByUse (.line b.line) else s

/-- Step 4 of R87 and the placing of R89; the response carries the handle, the state and h_p. -/
def bookEffect (p : PortId) (b : BookArgs) (s : State) : State × Reply :=
  match s.hasRoom p, s.freeSlot? with
  | true, some i =>
    ((s.place p b i).renewBooked b,
      .ok (handleBytes (s.handleOf i) ++ [entryStateByte (s.bookState b.axis), byte ((s.place p b i).booked.get p)]))
  | _, _ => (s, .refused .poolFull [byte (s.booked.get p)])

/-- Step 2 of R87: an action that names a line needs the claim on it. -/
def State.mayBook (s : State) (p : PortId) (b : BookArgs) : Bool :=
  !b.action.namesLine || s.holdsClaim p (.line b.line)

/-- BOOK (R87 to R89). -/
def bookReply (p : PortId) (s : State) (args : List Byte) : State × Reply :=
  withArgs parseBook (fun s b =>
    if s.mayBook p b then needValues (fun s => bookAccepted (s.axis b.axis).cfg.cpr b) (bookEffect p b) s
    else (s, .refused .notHolder)) s args

/-- BOOK (R89). -/
def execBook (p : PortId) (s : State) : Host.Outcome State Fault Refusal := .next (s.takeRequest p .book (bookReply p))

/-! ### Cancelling -/

/-- A command on an entry named by a handle: the refusals of R83, else the command on that entry. -/
def withEntry (p : PortId) (act : State → Handle → Entry → State × Reply) (s : State) (h : Handle) : State × Reply :=
  match s.resolve p h with
  | .error c => (s, .refused c)
  | .ok e => act s h e

/-- CANCEL: the entry is freed; the response carries its fire count (R91). -/
def cancelReply (p : PortId) (s : State) (args : List Byte) : State × Reply :=
  withArgs parseHandle (withEntry p (fun s h e => (s.freeEntry h.slot, .ok (beBytes 2 e.fireCount)))) s args

/-- CANCEL (R91). -/
def execCancel (p : PortId) (s : State) : Host.Outcome State Fault Refusal := .next (s.takeRequest p .cancel (cancelReply p))

/-- The slots of the entries of port `p` on an axis (R93). -/
def State.ownOn (s : State) (p : PortId) (a : AxisId) : List SlotId :=
  s.slotsWhere (fun e => decide (e.owner = p) && decide (e.axis = a))

/-- CANCEL_AXIS: every entry of the port on the axis is freed; the response carries their number (R93). -/
def cancelAxisReply (p : PortId) (s : State) (args : List Byte) : State × Reply :=
  withArgs parseAxis (fun s a => (s.freeEntries (s.ownOn p a), .ok [byte (s.ownOn p a).length])) s args

/-- CANCEL_AXIS (R93). -/
def execCancelAxis (p : PortId) (s : State) : Host.Outcome State Fault Refusal :=
  .next (s.takeRequest p .cancelAxis (cancelAxisReply p))

/-! ### Reading -/

/-- The width of a PULSE entry. -/
def EntryAction.width? : EntryAction → Option Nat
  | .pulse _ w => some w
  | _ => none

/-- The share mask of a CAPTURE entry. -/
def EntryAction.share? : EntryAction → Option PortMask
  | .capture m => some m
  | _ => none

/-- Interval and repeats remaining (Table 10.11). -/
def periodicBytes (q : Periodic) : List Byte := beSigned 4 q.interval ++ beBytes 2 q.repeats

/-- The entry record of the READ_ENTRY response (Table 10.11). -/
def entryRecordBytes (h : Handle) (e : Entry) : List Byte :=
  [byte (flagBit 1 e.action.line?.isSome + flagBit 2 e.action.width?.isSome + flagBit 4 e.action.share?.isSome
      + flagBit 8 e.periodic.isSome)]
    ++ handleBytes h ++ [byte e.axis.1] ++ positionBytes e.target ++ [qualifierByte e.qual, actionByte e.action]
    ++ optBytes (fun l : LineId => [byte l.1]) e.action.line? ++ optBytes (beBytes 2) e.action.width?
    ++ optBytes (fun m => [maskByte m]) e.action.share? ++ [yesNoByte e.notify] ++ optBytes periodicBytes e.periodic
    ++ [entryStateByte e.state] ++ beBytes 2 e.fireCount ++ beBytes 4 e.serial

/-- READ_ENTRY (R94). -/
def readEntryReply (p : PortId) (s : State) (args : List Byte) : State × Reply :=
  withArgs parseHandle (withEntry p (fun s h e => (s, .ok (entryRecordBytes h e)))) s args

/-- READ_ENTRY (R94). -/
def execReadEntry (p : PortId) (s : State) : Host.Outcome State Fault Refusal :=
  .next (s.takeRequest p .readEntry (readEntryReply p))

/-- The handles of the entries of port `p` on an axis, in the order of the axis's list (R95). -/
def State.listedHandles (s : State) (p : PortId) (a : AxisId) : List Handle :=
  ((s.axisList a).filter (fun x => decide (x.2.owner = p))).map (fun x => s.handleOf x.1)

/-- The data of LIST_ENTRIES: n, k and at most sixteen handles from the start index on (R95, Table 10.8). -/
def listData (hs : List Handle) (start : Nat) : List Byte :=
  [byte hs.length, byte ((hs.drop start).take 16).length] ++ ((hs.drop start).take 16).flatMap handleBytes

/-- LIST_ENTRIES (R95). -/
def listEntriesReply (p : PortId) (s : State) (args : List Byte) : State × Reply :=
  withArgs parseList (fun s x => (s, .ok (listData (s.listedHandles p x.1) x.2))) s args

/-- LIST_ENTRIES (R95). -/
def execListEntries (p : PortId) (s : State) : Host.Outcome State Fault Refusal :=
  .next (s.takeRequest p .listEntries (listEntriesReply p))

end Sys2Proof.Machine
end

