-- ==== Sys2Proof/Machine/CaptureCommands.lean ====
section
/-! DEFINITION. The family of capture commands: SNAP, SUBSCRIBE_CAPTURE, READ_SNAPSHOT, READ_OLDEST, RELEASE_SNAPSHOT, LIST_HELD
(chapter Captures and the Snapshot Table). -/

namespace Sys2Proof.Machine

/-! ### SNAP -/

/-- The response to a SNAP of a port that was, or was not, pruned (Table 7.5). -/
def snapBody (now : Time) (wasPruned : Bool) : CaptureResult → Reply
  | .exhausted => .refused .exhausted
  | .filled n =>
    if wasPruned then .refused .holdLimit (byte 1 :: beBytes 6 n) else .ok (beBytes 6 n ++ timeBytes now)
  | .noReader => .refused .holdLimit [byte 0]
  | .tableFull => if wasPruned then .refused .holdLimit [byte 0] else .refused .tableFull

/-- SNAP: a host capture for the requester and the share mask (R130). -/
def snapReply (p : PortId) (s : State) (args : List Byte) : State × Reply :=
  withArgs parseSnap (fun s share =>
    let cands := onePort p ||| share
    let out := s.capture (.host p) s.time cands (some p)
    (out.1, snapBody s.time (hasPort (s.pruned cands) p) out.2)) s args

/-- SNAP (R130). -/
def execSnap (p : PortId) (s : State) : Host.Outcome State Fault Refusal := .next (s.takeRequest p .snap (snapReply p))

/-! ### SUBSCRIBE_CAPTURE -/

/-- Set the port's subscription for one capture input (R122). -/
def State.setCaptureSub (s : State) (p : PortId) (c : CapId) (e : Edges) : State :=
  s.modPort p (fun r => { r with capSubs := upd r.capSubs c e })

/-- The port's subscriptions for both inputs (Table 10.8). -/
def captureSubBytes (r : PortRec) : List Byte := [edgesByte (r.capSubs.get 0), edgesByte (r.capSubs.get 1)]

/-- SUBSCRIBE_CAPTURE (R122). -/
def subscribeCaptureReply (p : PortId) (s : State) (args : List Byte) : State × Reply :=
  withArgs parseCaptureSub (fun s x =>
    (s.setCaptureSub p x.1 x.2, .ok (captureSubBytes ((s.setCaptureSub p x.1 x.2).port p)))) s args

/-- SUBSCRIBE_CAPTURE (R122). -/
def execSubscribeCapture (p : PortId) (s : State) : Host.Outcome State Fault Refusal :=
  .next (s.takeRequest p .subscribeCapture (subscribeCaptureReply p))

/-! ### Reading snapshots -/

/-- One axis part (Table 10.12). -/
def axisPartBytes (x : AxisPart) : List Byte :=
  [byte (lastDirCode x.lastDir + 4 * motionCode x.motion + 16 * refStateCode x.refState + flagBit 128 x.lastStep.isSome),
    byte (x.faults.toNat + flagBit 128 x.lastInterval.isSome)]
    ++ positionBytes x.pos ++ beBytes 2 x.epoch.toNat ++ optBytes timeBytes x.lastStep
    ++ optBytes (beBytes 4) x.lastInterval

/-- The entry's handle, given to the owner of a COMPARE snapshot alone (R132). -/
def shownHandle (p : PortId) : Cause → Option Handle
  | .compare o h => if o = p then some h else none
  | _ => none

/-- The axis mask byte (Table 10.12). -/
def axisMaskByte (p : PortId) (x : Snapshot) : Byte :=
  byte (flagBit 1 (x.parts.get 0).isSome + flagBit 2 (x.parts.get 1).isSome + flagBit 4 (x.parts.get 2).isSome
    + flagBit 8 (x.parts.get 3).isSome + flagBit 16 (shownHandle p x.cause).isSome)

/-- A snapshot as port `p` reads it (Table 10.12, R132). -/
def snapshotBytes (p : PortId) (x : Snapshot) : List Byte :=
  beBytes 6 x.number ++ timeBytes x.time ++ [causeByte x.cause, maskByte x.readers, axisMaskByte p x]
    ++ optBytes handleBytes (shownHandle p x.cause)
    ++ (List.finRange 4).flatMap (fun a => optBytes axisPartBytes (x.parts.get a))

/-- The checks of R132 on a capture number: NOT_FOUND, NOT_READER, else the command on the slot. -/
def withSnapshot (p : PortId) (act : State → Fin 16 → Snapshot → State × Reply) (s : State) (n : Nat) : State × Reply :=
  match s.findSnap n with
  | none => (s, .refused .notFound)
  | some i =>
    match s.snaps.get i with
    | none => (s, .refused .notFound)
    | some x => if hasPort x.readers p then act s i x else (s, .refused .notReader)

/-- READ_SNAPSHOT (R132). -/
def readSnapshotReply (p : PortId) (s : State) (args : List Byte) : State × Reply :=
  withArgs parseNumber (withSnapshot p (fun s _ x => (s, .ok (snapshotBytes p x)))) s args

/-- READ_SNAPSHOT (R132). -/
def execReadSnapshot (p : PortId) (s : State) : Host.Outcome State Fault Refusal :=
  .next (s.takeRequest p .readSnapshot (readSnapshotReply p))

/-- The snapshot with the smaller capture number. -/
def olderSnap (x : Snapshot) : Option Snapshot → Snapshot
  | none => x
  | some y => if x.number ≤ y.number then x else y

/-- The snapshot with the smallest capture number (R133). -/
def oldestOf : List Snapshot → Option Snapshot
  | [] => none
  | x :: rest => some (olderSnap x (oldestOf rest))

/-- READ_OLDEST (R133). -/
def readOldestReply (p : PortId) (s : State) (args : List Byte) : State × Reply :=
  withArgs parseNothing (fun s _ =>
    match oldestOf (s.heldBy p) with
    | none => (s, .refused .notFound)
    | some x => (s, .ok (snapshotBytes p x))) s args

/-- READ_OLDEST (R133). -/
def execReadOldest (p : PortId) (s : State) : Host.Outcome State Fault Refusal :=
  .next (s.takeRequest p .readOldest (readOldestReply p))

/-- RELEASE_SNAPSHOT: the port leaves the reader set; the response says whether the slot became FREE (R134). -/
def releaseSnapshotReply (p : PortId) (s : State) (args : List Byte) : State × Reply :=
  withArgs parseNumber (withSnapshot p (fun s i x =>
    (s.releaseSnap i p, .ok [yesNoByte (decide (dropPort x.readers p = 0#3))]))) s args

/-- RELEASE_SNAPSHOT (R134). -/
def execReleaseSnapshot (p : PortId) (s : State) : Host.Outcome State Fault Refusal :=
  .next (s.takeRequest p .releaseSnapshot (releaseSnapshotReply p))

/-! ### LIST_HELD -/

/-- Insert a number into an increasing list. -/
def insertNumber (n : Nat) : List Nat → List Nat
  | [] => [n]
  | m :: rest => if n ≤ m then n :: m :: rest else m :: insertNumber n rest

/-- Numbers in increasing order. -/
def sortNumbers : List Nat → List Nat
  | [] => []
  | n :: rest => insertNumber n (sortNumbers rest)

/-- The capture numbers a port holds, in increasing order (R136). -/
def State.heldNumbers (s : State) (p : PortId) : List Nat := sortNumbers ((s.heldBy p).map Snapshot.number)

/-- LIST_HELD: the hold count and the capture numbers held (R136, Table 10.8). -/
def listHeldReply (p : PortId) (s : State) (args : List Byte) : State × Reply :=
  withArgs parseNothing (fun s _ => (s, .ok (byte (s.holds.get p) :: (s.heldNumbers p).flatMap (beBytes 6)))) s args

/-- LIST_HELD (R136). -/
def execListHeld (p : PortId) (s : State) : Host.Outcome State Fault Refusal :=
  .next (s.takeRequest p .listHeld (listHeldReply p))

end Sys2Proof.Machine
end

