-- ==== Sys2Proof/Machine/Weaving.lean ====
section
/-! DEFINITION. SAMPLE_TAKEN, with what may be taken between the parts of a sample: captures of other causes, and the parts of samples
of other axes (R104, R117, R126, R129; entry 18). -/

namespace Sys2Proof.Machine

/-- A capture that was taken while samples of other axes were under way: its number, those axes, and which axes it reads
after their samples; each axis has its own side (R126). -/
structure Crossing where
  number : Nat
  axes : List AxisId
  late : List AxisId
  deriving DecidableEq, Repr

/-- The samples under way, in the order in which they began, and the captures that crossed them. -/
structure Weaving where
  state : State
  runs : List SampleRun
  crossings : List Crossing
  deriving DecidableEq, Repr

/-- The captures taken from `s` to `s'`, as crossings of the given axes. -/
def crossingsOf (s s' : State) (axes : List AxisId) (late : List AxisId) : List Crossing :=
  if axes = [] then []
  else (List.range' s.nextCapture (s'.nextCapture - s.nextCapture)).map (fun n => ⟨n, axes, late⟩)

/-- A sample begins: it is under way if its axis decodes (R7). -/
def Weaving.begin (w : Weaving) (a : AxisId) (rawA rawB rawZ : Level) : Weaving :=
  { w with
    state := (w.state.beginSample a rawA rawB rawZ).1
    runs := w.runs ++ (w.state.beginSample a rawA rawB rawZ).2.toList }

/-- An event of the Capture Unit or of the sample of axis `self` leaves `s'`; its captures cross the other samples under way. -/
def Weaving.event (w : Weaving) (self : Option AxisId) (late : List AxisId) (s' : State) : Weaving :=
  { w with
    state := s'
    crossings := w.crossings
      ++ crossingsOf w.state s' ((w.runs.map SampleRun.axis).filter (fun b => decide (self ≠ some b))) late }

/-- The sample under way of an axis is replaced. -/
def Weaving.setRun (w : Weaving) (r : SampleRun) : Weaving :=
  { w with runs := w.runs.map (fun x => if x.axis = r.axis then r else x) }

/-- One thing that is taken while samples are under way. A sample that is not due, or whose axis has a sample under way, does
not begin; a sample that is not under way makes no part (entry 4). -/
def Weaving.take (ph : ClkPhase) (w : Weaving) : Between → Weaving
  | .edge c raw late => w.event none late (w.state.runCap c raw)
  | .snap p late => w.event none late (w.state.takeRequest p .snap (snapReply p))
  | .start b rawA rawB rawZ =>
    if w.runs.all (fun r => decide (r.axis ≠ b)) && w.state.takesSample b ph then w.begin b rawA rawB rawZ else w
  | .go b late =>
    match w.runs.find? (fun r => decide (r.axis = b)) with
    | none => w
    | some r => (w.event (some b) late (w.state.advance r).1).setRun (w.state.advance r).2

/-- The samples under way are brought to their ends, one after another; a capture of one reads those that have not ended as
they were before (R126). -/
def finishRuns (s : State) (crossings : List Crossing) : List SampleRun → State × List Crossing
  | [] => (s, crossings)
  | r :: rest =>
    finishRuns (s.finishSample r) (crossings ++ crossingsOf s (s.finishSample r) (rest.map SampleRun.axis) []) rest

/-- The axis part that a crossing capture shows of axis `a`: the record before the sample or after it (R126). -/
def crossedPart (s : State) (runs : List SampleRun) (x : Crossing) (a : AxisId) (part : Option AxisPart) : Option AxisPart :=
  match runs.find? (fun r => decide (r.axis = a) && decide (a ∈ x.axes)) with
  | none => part
  | some r => if a ∈ x.late then (s.axis a).part else r.before.part

/-- The snapshot of a crossing capture takes the axis parts of R126. -/
def State.showCrossing (runs : List SampleRun) (s : State) (x : Crossing) : State :=
  { s with snaps := s.snaps.map (fun y => y.map (fun y =>
      if y.number = x.number then { y with parts := Vector.ofFn (fun a => crossedPart s runs x a (y.parts.get a)) } else y)) }

/-- All samples under way end, and the snapshots taken across them show their axes whole (R126). -/
def Weaving.close (w : Weaving) : State :=
  (finishRuns w.state w.crossings w.runs).2.foldl (State.showCrossing w.runs) (finishRuns w.state w.crossings w.runs).1

/-- A sample taken, with what is taken between its parts. -/
def State.sample (s : State) (a : AxisId) (course : SampleCourse) (rawA rawB rawZ : Level) : State :=
  (course.between.foldl (Weaving.take course.half) ((⟨s, [], []⟩ : Weaving).begin a rawA rawB rawZ)).close

/-- SAMPLE_TAKEN (R1, R2, R6, R15, R129). -/
def execSampleTaken (a : AxisId) (course : SampleCourse) (rawA rawB rawZ : Level) (s : State) :
    Host.Outcome State Fault Refusal :=
  .next (if s.takesSample a course.half then s.sample a course rawA rawB rawZ else s)

end Sys2Proof.Machine
end

