-- ==== Sys2Proof/Machine/Dispatch.lean ====
section
/-! DEFINITION. One arm for each command: its meaning. -/

namespace Sys2Proof.Machine

/-- The effect of a command on everything but the queue of waiting commands. -/
def exec (i : Instr) (s : State) : Host.Outcome State Fault Refusal :=
  match i with
  | .deviceReset csLow => Sys2Proof.Machine.execDeviceReset csLow s
  | .sampleTaken a course rawA rawB rawZ => Sys2Proof.Machine.execSampleTaken a course rawA rawB rawZ s
  | .quietWindowChange w raw => Sys2Proof.Machine.execQuietWindowChange w raw s
  | .captureEdge c raw => Sys2Proof.Machine.execCaptureEdge c raw s
  | .stallExpiry a => Sys2Proof.Machine.execStallExpiry a s
  | .leaseExpiry subj => Sys2Proof.Machine.execLeaseExpiry subj s
  | .pulseEnd l => Sys2Proof.Machine.execPulseEnd l s
  | .csNFall p => Sys2Proof.Machine.execCsNFall p s
  | .csNRise p sdi => Sys2Proof.Machine.execCsNRise p sdi s
  | .frameError p => Sys2Proof.Machine.execFrameError p s
  | .unknownCommand p => Sys2Proof.Machine.execUnknownCommand p s
  | .nop p => Sys2Proof.Machine.execNop p s
  | .portStatus p => Sys2Proof.Machine.execPortStatus p s
  | .portReset p => Sys2Proof.Machine.execPortReset p s
  | .repeatFrame p => Sys2Proof.Machine.execRepeatFrame p s
  | .subscribe p => Sys2Proof.Machine.execSubscribe p s
  | .readTime p => Sys2Proof.Machine.execReadTime p s
  | .setAxisConfig taking => Sys2Proof.Machine.execSetAxisConfig taking s
  | .startAxis p => Sys2Proof.Machine.execStartAxis p s
  | .stopAxis p => Sys2Proof.Machine.execStopAxis p s
  | .readAxis p => Sys2Proof.Machine.execReadAxis p s
  | .clearFaults p => Sys2Proof.Machine.execClearFaults p s
  | .armReference p => Sys2Proof.Machine.execArmReference p s
  | .setReference p => Sys2Proof.Machine.execSetReference p s
  | .dropReference p => Sys2Proof.Machine.execDropReference p s
  | .claim p => Sys2Proof.Machine.execClaim p s
  | .release p => Sys2Proof.Machine.execRelease p s
  | .readClaims p => Sys2Proof.Machine.execReadClaims p s
  | .book p => Sys2Proof.Machine.execBook p s
  | .cancel p => Sys2Proof.Machine.execCancel p s
  | .cancelAxis p => Sys2Proof.Machine.execCancelAxis p s
  | .readEntry p => Sys2Proof.Machine.execReadEntry p s
  | .listEntries p => Sys2Proof.Machine.execListEntries p s
  | .driveLine p => Sys2Proof.Machine.execDriveLine p s
  | .readLines p => Sys2Proof.Machine.execReadLines p s
  | .snap p => Sys2Proof.Machine.execSnap p s
  | .subscribeCapture p => Sys2Proof.Machine.execSubscribeCapture p s
  | .readSnapshot p => Sys2Proof.Machine.execReadSnapshot p s
  | .readOldest p => Sys2Proof.Machine.execReadOldest p s
  | .releaseSnapshot p => Sys2Proof.Machine.execReleaseSnapshot p s
  | .listHeld p => Sys2Proof.Machine.execListHeld p s
  | .deviceTimeTick => Sys2Proof.Machine.execDeviceTimeTick s
  | .inputFilterRun g raw => Sys2Proof.Machine.execInputFilterRun g raw s

end Sys2Proof.Machine
end

