-- ==== Sys2Proof/Safety.lean ====
section
/-! DEFINITION. What a safe run of the block keeps: the laws of the device, as predicates of the state, and the words the statements
are written in: a request at the head of a queue, the state in which it has been answered, a claim renewed by use. -/

namespace Sys2Proof.Machine

/-! ### The laws of the device -/

/-- R14: an axis whose direction policy is ANY has ratchet debt 0. -/
def State.RatchetLaw (s : State) : Prop := ∀ a, (s.axis a).cfg.policy = .any → (s.axis a).debt = 0

/-- R30: an axis in SEEKING, REFERENCED or SUSPECT is COUNTING. -/
def State.CountingLaw (s : State) : Prop :=
  ∀ a, (s.axis a).refState = .seeking ∨ (s.axis a).refState = .referenced ∨ (s.axis a).refState = .suspect →
    (s.axis a).run = .counting

/-- R34 and R44: the CPR is in its range, the position is in the range it gives, and the reference fields fit it. -/
def AxisRec.Placed (r : AxisRec) : Prop :=
  2 ≤ r.cfg.cpr ∧ r.cfg.cpr ≤ 1048576 ∧ r.pos.wellFormed r.cfg.cpr = true ∧ r.refOffset < r.cfg.cpr
    ∧ Config.turnsMin ≤ r.refTurns ∧ r.refTurns ≤ Config.turnsMax

/-- R34 and R44, for every axis. -/
def State.PositionLaw (s : State) : Prop := ∀ a, (s.axis a).Placed

/-- R97: a compare entry is ARMED only while its axis is REFERENCED. -/
def State.ArmedLaw (s : State) : Prop :=
  ∀ i e, (s.slot i).entry = some e → e.state = .armed → (s.axis e.axis).refState = .referenced

/-- R65 for one record: a free record has the values of Table 4.2, the lease is in its range, and the expiry time is present
exactly while the lease is non-zero. -/
def ClaimRec.Legal (c : ClaimRec) : Prop :=
  (c.holder = none → c = ⟨none, 0, none, .low⟩) ∧ (c.expiry.isSome ↔ c.lease ≠ 0) ∧ leaseWellFormed c.lease = true

/-- R65, for every subject; the record of an axis keeps no idle level. -/
def State.ClaimLaw (s : State) : Prop :=
  (∀ subj, (s.claim subj).Legal) ∧ ∀ a, (s.claim (.axis a)).idle = .low

/-- How many slots of the pool hold an entry of port `p`. -/
def State.ownedBy (s : State) (p : PortId) : Nat :=
  (List.finRange 64).countP (fun i => decide ((s.slot i).entry.map Entry.owner = some p))

/-- R81: h_p counts the entries of port p, and the shared occupancy is at most 40. -/
def State.PoolLaw (s : State) : Prop :=
  (∀ p, s.booked.get p = s.ownedBy p)
    ∧ (s.booked.get 0 - 8) + (s.booked.get 1 - 8) + (s.booked.get 2 - 8) ≤ 40

/-- R99: an entry whose action names a line belongs to the port that holds the line. -/
def State.LineEntryLaw (s : State) : Prop :=
  ∀ i e l, (s.slot i).entry = some e → e.action.line? = some l → (s.claim (.line l)).holder = some e.owner

/-- R109: a line with no holder is LOW and has no pulse running. -/
def State.FreeLineLaw (s : State) : Prop :=
  ∀ l, (s.claim (.line l)).holder = none → (s.line l).level = .low ∧ (s.line l).pulseEnd = none

/-- How many slots of the snapshot table have port `p` in their reader set. -/
def State.readBy (s : State) (p : PortId) : Nat :=
  (List.finRange 16).countP (fun i =>
    match s.snaps.get i with
    | some x => hasPort x.readers p
    | none => false)

/-- R123: a HELD slot has a reader, the hold count of a port is the number of slots it reads, and that is at most 8. -/
def State.HoldLaw (s : State) : Prop :=
  (∀ i x, s.snaps.get i = some x → x.readers ≠ 0#3) ∧ (∀ p, s.holds.get p = s.readBy p) ∧ ∀ p, s.holds.get p ≤ 8

/-- R124: the capture numbers of HELD slots are distinct and smaller than the next one, which lies in 1 to 2^48. -/
def State.NumberLaw (s : State) : Prop :=
  (∀ i x, s.snaps.get i = some x → 1 ≤ x.number ∧ x.number < s.nextCapture)
    ∧ (∀ i j x y, s.snaps.get i = some x → s.snaps.get j = some y → x.number = y.number → i = j)
    ∧ 1 ≤ s.nextCapture ∧ s.nextCapture ≤ 281474976710656

/-- R150: at each port, requests waiting plus responses waiting are at most 8. -/
def State.QueueLaw (s : State) : Prop := ∀ p, (s.port p).requests.length + (s.port p).responses.length ≤ 8

/-- R160 for one port: until its first frame since device reset is selected, no exchange is open, no request and no response
waits, no frame has been delivered, and the frame number and the flags are those of the reset. -/
def PortRec.FirstFrame (r : PortRec) : Prop :=
  r.fresh = true → r.requests = [] ∧ r.responses = [] ∧ r.frameNo = 0#8 ∧ r.lastDelivered = none ∧ r.dropped = false
    ∧ r.resetSeen = true ∧ ∀ f voided, r.exchange ≠ .active f voided

/-- R160, for every port. -/
def State.FirstFrameLaw (s : State) : Prop := ∀ p, (s.port p).FirstFrame

/-- R164 for one queue: no two notices of one kind and subject, a late part has the kind and subject of its entry, and
there are at most 40 entries. -/
def PortRec.NoticesDistinct (r : PortRec) : Prop :=
  (r.notices.map (fun e => e.notice.key)).Nodup ∧ (∀ e ∈ r.notices, ∀ n, e.late = some n → n.key = e.notice.key)
    ∧ r.notices.length ≤ 40

/-- R164, for every port. -/
def State.NoticeLaw (s : State) : Prop := ∀ p, (s.port p).NoticesDistinct

/-- R86: the serials of the entries of one axis are distinct and below the next serial, which is at most 2^32. -/
def State.SerialLaw (s : State) : Prop :=
  (∀ a, s.nextSerial.get a ≤ 4294967296)
    ∧ (∀ i e, (s.slot i).entry = some e → e.serial < s.nextSerial.get e.axis)
    ∧ ∀ i j e f, (s.slot i).entry = some e → (s.slot j).entry = some f → e.axis = f.axis → e.serial = f.serial → i = j

/-! ### Timers -/

/-- The expiry time a timer holds, if it runs (R23). -/
def State.expiryOf (s : State) : TimerId → Option Time
  | .stall a => (s.axis a).stall
  | .lease subj => (s.claim subj).expiry
  | .pulse l => (s.line l).pulseEnd

/-! ### Requests and their answers -/

/-- The request at the head of the queue of port `p` has this CMD byte, tag and argument bytes (section 8.1). -/
abbrev State.asks (s : State) (p : PortId) (cmd tag : Byte) (args : List Byte) : Prop :=
  (s.port p).requests.head? = some (.request tag cmd args)

/-- A port record whose head request has been answered: it has left the request queue and the response stands at the tail of
the response queue (R153). -/
def PortRec.answered (r : PortRec) (tag : Byte) (body : List Byte) : PortRec :=
  { r with requests := r.requests.tail, responses := r.responses ++ [⟨tag, body, none⟩] }

/-- The state in which the head request of port `p` has been answered and nothing else has changed. -/
def State.answered (s : State) (p : PortId) (tag : Byte) (body : List Byte) : State :=
  s.modPort p (fun r => r.answered tag body)

/-- A claim record after a renewal by use at time `now`: the expiry time becomes now plus the lease, at 10,000 ticks to the
ms; with lease 0 nothing changes (R72). -/
def ClaimRec.used (now : Time) (c : ClaimRec) : ClaimRec :=
  if c.lease = 0 then c else { c with expiry := some (now + BitVec.ofNat 48 (c.lease * 10000)) }

/-- The state in which the claim on a subject has been renewed by use and nothing else has changed. -/
def State.used (s : State) (subj : Subject) : State := s.modClaim subj (ClaimRec.used s.time)

/-- The state in which a notice has reached the queues of exactly the ports that `who` names (R161). -/
def State.told (s : State) (who : PortId → Bool) (n : Notice) : State :=
  { s with ports := Vector.ofFn (fun q => if who q then (s.port q).accept n else s.port q) }

/-- The state in which a notice has reached the queues of the ports whose subscription mask has the given bit (R161), or in
whose queue a notice of its kind and subject waits (R163). -/
def State.toldSubscribers (s : State) (bit : Nat) (n : Notice) : State :=
  s.told (fun q => (s.port q).subs.getLsbD bit || (s.port q).notices.any (fun e => decide (e.notice.key = n.key))) n

/-- The state in which the entries of an axis have the given entry state and nothing else has changed (R96, R97). -/
def State.entriesMarked (s : State) (a : AxisId) (st : EntryState) : State :=
  { s with pool := s.pool.map (fun x =>
      match x.entry with
      | some e => if e.axis = a then ⟨x.gen, some { e with state := st }⟩ else x
      | none => x) }

/-- How many entries of port `p` meet a condition. -/
def State.ownedWhere (s : State) (p : PortId) (cond : Entry → Bool) : Nat :=
  (List.finRange 64).countP (fun i =>
    match (s.slot i).entry with
    | some e => decide (e.owner = p) && cond e
    | none => false)

/-- The state in which exactly the entries that meet a condition have been freed: their slots are FREE, the generations of
those slots have grown by one, and each h_p has fallen by the number of its entries freed (R84). -/
def State.withoutEntries (s : State) (cond : Entry → Bool) : State :=
  { s with
    pool := s.pool.map (fun x =>
      match x.entry with
      | some e => if cond e then ⟨x.gen + 1#8, none⟩ else x
      | none => x)
    booked := Vector.ofFn (fun p => s.booked.get p - s.ownedWhere p cond) }

/-- One run of the filter of R3 from record `f` to record `g`, with the given depth and raw level. -/
def FilterStep (depth : Nat) (raw : Level) (f g : FilterRec) : Prop :=
  (raw = f.accepted → g = ⟨f.accepted, 0⟩)
    ∧ (raw ≠ f.accepted → f.run + 1 = depth → g = ⟨raw, 0⟩)
    ∧ (raw ≠ f.accepted → f.run + 1 ≠ depth → g = ⟨f.accepted, f.run + 1⟩)

/-- A CLKIN period of the present tick at which axis `a` takes a sample: its number is a multiple of 2^k for the divider k in
force in it, and the selected window is open (R1, R5, R6; entry 6). -/
def State.SampleDue (s : State) (a : AxisId) (ph : ClkPhase) : Prop :=
  (2 * s.time.toNat + (if ph = .second then 1 else 0)) % 2 ^ (if ph = .second then (s.axis a).dividers.second else (s.axis a).dividers.first) = 0
    ∧ ((s.axis a).cfg.window = .qw0 → (s.qw.get 0).accepted = .high)
    ∧ ((s.axis a).cfg.window = .qw1 → (s.qw.get 1).accepted = .high)

/-! ### Codes, bookings, bytes -/

/-- The levels of A and B at each phase of the quadrature cycle, forward order (section 1.5). -/
def quadPhase : Fin 4 → Level × Level
  | 0 => (.low, .low)
  | 1 => (.high, .low)
  | 2 => (.high, .high)
  | 3 => (.low, .high)

/-- The levels of U, V and W in each Hall sector, forward order (section 1.6). -/
def hallSector : Fin 6 → Code
  | 0 => ⟨.high, .low, .low⟩
  | 1 => ⟨.high, .high, .low⟩
  | 2 => ⟨.low, .high, .low⟩
  | 3 => ⟨.low, .high, .high⟩
  | 4 => ⟨.low, .low, .high⟩
  | 5 => ⟨.high, .low, .high⟩

/-- The values of a BOOK that step 3 of R87 admits, under the CPR of the axis. -/
def BookInRange (cpr : Nat) (b : BookArgs) : Prop :=
  b.target.count < cpr
    ∧ (b.action = .pulse → 1 ≤ b.width) ∧ (b.action ≠ .pulse → b.width = 0)
    ∧ (b.action = .noticeOnly ∨ b.action = .capture → b.line = 0)
    ∧ (b.action ≠ .capture → b.share = 0#3)
    ∧ -1048576 ≤ b.interval ∧ b.interval ≤ 1048576
    ∧ (b.interval = 0 ↔ b.repeats = 0)

/-- Whether the action of a BOOK names a line (section 5.4). -/
def BookNamesLine (b : BookArgs) : Prop :=
  b.action = .pulse ∨ b.action = .setActive ∨ b.action = .setIdle ∨ b.action = .toggle

/-- The shared occupancy of the pool (R81). -/
def State.sharedPlaces (s : State) : Nat := (s.booked.get 0 - 8) + (s.booked.get 1 - 8) + (s.booked.get 2 - 8)

/-- The bytes of a well-formed request frame (Table 10.1). -/
def requestFrame (tag cmd : Byte) (args : List Byte) : List Byte :=
  let covered := BitVec.ofNat 8 (args.length + 2) :: tag :: cmd :: args
  covered ++ [crc8 covered]

/-- The expiry time of a lease set at time `now`, at 10,000 ticks to the ms; absent for lease 0 (R67). -/
def leaseEnd (now : Time) (lease : Nat) : Option Time :=
  if lease = 0 then none else some (now + BitVec.ofNat 48 (lease * 10000))

end Sys2Proof.Machine
end

