-- ==== Sys2Proof/Certificates/Slice0/Obligations.lean ====
section
/-! DEFINITION. The statements for the provers. A statement whose conclusion is an equation `exec i s = .next t` gives the whole next
state, so it is a frame as well: every field that `t` does not replace is unchanged. -/

open Sys2Proof Sys2Proof.Machine

/-! ### The queue of commands, reset, device time -/

/-- The command at the front is run on the state with the rest of the queue; with an empty queue nothing changes. That
commands wait in one queue and that the block idles on an empty one is the model's choice (entry 1). -/
def Obligations.StepTakesFrontCommand : Prop :=
  (∀ (c : Instr) (rest : List Instr) (s : State), step { s with pending := c :: rest } = exec c { s with pending := rest })
    ∧ ∀ s : State, s.pending = [] → step s = .next s

/-- DEVICE_RESET leaves the reset values of Tables 1.1, 2.1, 2.8, 3.1, 4.2, 5.1, 6.2, 7.1 and 8.1, and a port whose CS_N is
low waits for it to be high (R160). That the waiting commands and the count of draws are kept is the model's choice
(entries 7 and 8). -/
def Obligations.DeviceResetLeavesResetValues : Prop :=
  ∀ (s : State) (csLow : PortMask),
    let resetTo (pending : List Instr) (draws : Nat) (exchange : PortId → Exchange) : State :=
      { pending := pending
        time := 0#48
        axes := Vector.replicate 4
          { cfg := { mode := .off, cpr := 4, divider := 0, depth := 4, window := .none, policy := .any,
                     polarity := .activeHigh, tolerance := 2, correction := .snap, stallMs := 0 }
            dividers := ⟨0, 0⟩
            filtA := ⟨.low, 0⟩
            filtB := ⟨.low, 0⟩
            filtZ := ⟨.low, 0⟩
            prevCode := none
            debt := 0
            run := .disabled
            pos := ⟨0, 0⟩
            lastDir := .none
            motion := .stopped
            lastStep := none
            lastInterval := none
            timingRun := .closed
            stall := none
            faults := ⟨0#7, none, 0⟩
            refState := .unreferenced
            epoch := 0#16
            refOffset := 0
            refTurns := 0
            lastDrift := none
            sinceIndex := 0 }
        qw := Vector.replicate 2 ⟨.low, 0⟩
        cap := Vector.replicate 2 ⟨.low, 0⟩
        claims := Vector.replicate 12 ⟨none, 0, none, .low⟩
        lines := Vector.replicate 8 ⟨.low, none, 0#32⟩
        pool := Vector.replicate 64 ⟨0#8, none⟩
        booked := Vector.replicate 3 0
        nextSerial := Vector.replicate 4 0
        snaps := Vector.replicate 16 none
        nextCapture := 1
        holds := Vector.replicate 3 0
        ports := Vector.ofFn (fun p =>
          { requests := []
            responses := []
            notices := []
            frameNo := 0#8
            lastDelivered := none
            dropped := false
            resetSeen := true
            exchange := exchange p
            subs := 0#12
            capSubs := Vector.replicate 2 .none
            fresh := true })
        draws := draws }
    State.reset = resetTo [] 0 (fun _ => .idle)
      ∧ exec (.deviceReset csLow) s
          = .next (resetTo s.pending s.draws (fun p => if csLow.getLsbD p.1 then .waitHigh else .idle))

/-- DEVICE_TIME_TICK: device time grows by one modulo 2^48, each axis's sample divider is in force in both CLKIN periods of the
new tick (R1), no timer is left at the tick that ended, and where none was due nothing else changes; where some were due, each has had the effect of its own expiry command (R38, R73, R111), one after
another. That due expiries which the sender has not sent are taken when the tick ends, in an order nothing fixes, is the
model's choice (entry 7). -/
def Obligations.TickTakesDueTimersThenAdvances : Prop :=
  ∀ s : State, s.ClaimLaw →
    let begun (u : State) : State := { u with
      time := u.time + 1#48
      axes := u.axes.map (fun r => { r with dividers := ⟨r.cfg.divider, r.cfg.divider⟩ }) }
    ∃ t, exec .deviceTimeTick s = .next t ∧ t.time = s.time + 1#48
      ∧ (∀ x : TimerId, t.expiryOf x ≠ some s.time)
      ∧ ((∀ x : TimerId, s.expiryOf x ≠ some s.time) → t = begun s)
      ∧ ((∃ x : TimerId, s.expiryOf x = some s.time) →
          let command : TimerId → Instr := fun
            | .stall a => .stallExpiry a
            | .lease subj => .leaseExpiry subj
            | .pulse l => .pulseEnd l
          let taken (u : State) (x : TimerId) : State := match exec (command x) u with
            | .next v => v
            | _ => u
          ∃ order : List TimerId, order.Nodup ∧ (∀ x, x ∈ order ↔ s.expiryOf x = some s.time)
            ∧ t = begun (order.foldl taken { s with draws := s.draws + 1 }))

/-! ### Counting inputs -/

/-- SAMPLE_TAKEN: every sample taken runs the three filters by R3; on an axis that is DISABLED or in mode OFF it does nothing
else; with the window closed, or at no sample instant, nothing changes (R1, R2, R6; entries 4 and 6). The divider is
the one in force in that CLKIN period (R1). -/
def Obligations.EverySampleRunsTheThreeFilters : Prop :=
  ∀ (s : State) (a : AxisId) (ph : ClkPhase) (rawA rawB rawZ : Level),
    (s.SampleDue a ph →
      ∃ t A B Z, exec (.sampleTaken a ⟨ph, []⟩ rawA rawB rawZ) s = .next t
        ∧ FilterStep (s.axis a).cfg.depth rawA (s.axis a).filtA A
        ∧ FilterStep (s.axis a).cfg.depth rawB (s.axis a).filtB B
        ∧ FilterStep (s.axis a).cfg.depth rawZ (s.axis a).filtZ Z
        ∧ (t.axis a).filtA = A ∧ (t.axis a).filtB = B ∧ (t.axis a).filtZ = Z
        ∧ ((s.axis a).run = .disabled ∨ (s.axis a).cfg.mode = .off →
            t = s.modAxis a (fun r => { r with filtA := A, filtB := B, filtZ := Z })))
      ∧ (¬ s.SampleDue a ph → ∀ between, exec (.sampleTaken a ⟨ph, between⟩ rawA rawB rawZ) s = .next s)

/-- A sample of a counting axis that is a baseline, or that leaves the code as it was, changes the filters and the previous
code alone (R7, R11). -/
def Obligations.BaselineSampleOnlyStoresItsCode : Prop :=
  ∀ (s : State) (a : AxisId) (ph : ClkPhase) (rawA rawB rawZ : Level) (A B Z : FilterRec),
    s.SampleDue a ph → (s.axis a).run = .counting → (s.axis a).cfg.mode ≠ .off →
    FilterStep (s.axis a).cfg.depth rawA (s.axis a).filtA A →
    FilterStep (s.axis a).cfg.depth rawB (s.axis a).filtB B →
    FilterStep (s.axis a).cfg.depth rawZ (s.axis a).filtZ Z →
    let m := (s.axis a).cfg.mode
    let code : Code := ⟨A.accepted, B.accepted, if m = .quadIndex ∨ m = .hall3 then Z.accepted else .low⟩
    ((s.axis a).prevCode = some code
      ∨ (s.axis a).prevCode = none ∧ (m = .hall3 → ¬ (A.accepted = B.accepted ∧ B.accepted = Z.accepted))) →
    exec (.sampleTaken a ⟨ph, []⟩ rawA rawB rawZ) s
      = .next (s.modAxis a (fun r => { r with filtA := A, filtB := B, filtZ := Z, prevCode := some code }))

/-- QUAD and QUAD_INDEX: the phase difference decides the step or QUAD_SKIP (Table 1.5), and a change of Z is an index event
exactly as R9 says, by the last direction after the step of the same sample. -/
def Obligations.QuadratureStepsAndIndexEvents : Prop :=
  ∀ (r : AxisRec) (i j : Fin 4) (zOld zNew : Level),
    let steps : List Dir := if j = i + 1 then [.forward] else if j = i + 3 then [.reverse] else []
    let fault : Option FaultKind := if j = i + 2 then some .quadSkip else none
    let dir : LastDir := if j = i + 1 then .forward else if j = i + 3 then .reverse else r.lastDir
    let active (z : Level) : Prop := r.cfg.polarity = .activeHigh ∧ z = .high ∨ r.cfg.polarity = .activeLow ∧ z = .low
    (r.cfg.mode = .quad → i ≠ j → r.prevCode = some ⟨(quadPhase i).1, (quadPhase i).2, .low⟩ →
      decodeSample r ⟨(quadPhase j).1, (quadPhase j).2, .low⟩ = ⟨steps, false, fault⟩)
    ∧ (r.cfg.mode = .quadIndex → (i ≠ j ∨ zOld ≠ zNew) → r.prevCode = some ⟨(quadPhase i).1, (quadPhase i).2, zOld⟩ →
        let out := decodeSample r ⟨(quadPhase j).1, (quadPhase j).2, zNew⟩
        out.steps = steps ∧ out.fault = fault
          ∧ (out.index = true ↔ zOld ≠ zNew ∧ (active zNew ∧ dir = .forward ∨ ¬ active zNew ∧ dir = .reverse)))

/-- HALL3 by sector difference, with the invalid codes of R11, and STEP_DIR by the rise of A (R10 to R12). -/
def Obligations.HallAndStepDirDecoding : Prop :=
  (∀ (r : AxisRec) (i j : Fin 6), r.cfg.mode = .hall3 → i ≠ j → r.prevCode = some (hallSector i) →
    decodeSample r (hallSector j)
      = if j = i + 1 then ⟨[.forward], false, none⟩
        else if j = i + 5 then ⟨[.reverse], false, none⟩
        else if j = i + 2 then ⟨[.forward, .forward], false, some .hallSkip⟩
        else if j = i + 4 then ⟨[.reverse, .reverse], false, some .hallSkip⟩
        else ⟨[], false, some .hallSkip⟩)
  ∧ (∀ (r : AxisRec) (l : Level), r.cfg.mode = .hall3 →
      decodeSample r ⟨l, l, l⟩ = if r.prevCode = some ⟨l, l, l⟩ then ⟨[], false, none⟩ else ⟨[], false, some .hallCode⟩)
  ∧ (∀ (r : AxisRec) (l : Level) (j : Fin 6), r.cfg.mode = .hall3 → r.prevCode = some ⟨l, l, l⟩ ∨ r.prevCode = none →
      decodeSample r (hallSector j) = ⟨[], false, none⟩)
  ∧ ∀ (r : AxisRec) (aOld bOld aNew bNew : Level), r.cfg.mode = .stepDir → r.prevCode = some ⟨aOld, bOld, .low⟩ →
      decodeSample r ⟨aNew, bNew, .low⟩
        = if aOld = .low ∧ aNew = .high then ⟨[if bNew = .high then .forward else .reverse], false, none⟩
          else ⟨[], false, none⟩

/-- The ratchet of every raw step: Table 1.9 row by row, its debt is stored, and a step that is not applied does not move the
position (R13, R16). -/
def Obligations.RatchetFollowsItsTable : Prop :=
  (∀ d, ratchet .any d 0 = ⟨true, 0, false⟩)
  ∧ (∀ n, n < 65535 → ratchet .fwdOnly .reverse n = ⟨false, n + 1, false⟩ ∧ ratchet .revOnly .forward n = ⟨false, n + 1, false⟩)
  ∧ ratchet .fwdOnly .reverse 65535 = ⟨false, 65535, true⟩ ∧ ratchet .revOnly .forward 65535 = ⟨false, 65535, true⟩
  ∧ (∀ n, 0 < n → ratchet .fwdOnly .forward n = ⟨false, n - 1, false⟩ ∧ ratchet .revOnly .reverse n = ⟨false, n - 1, false⟩)
  ∧ ratchet .fwdOnly .forward 0 = ⟨true, 0, false⟩ ∧ ratchet .revOnly .reverse 0 = ⟨true, 0, false⟩
  ∧ ∀ (s : State) (a : AxisId) (t : Time) (d : Dir),
      let out := ratchet (s.axis a).cfg.policy d (s.axis a).debt
      ((s.oneStep a t d).axis a).debt = out.debt
        ∧ (RatchetResult.overflow out = true → FaultKind.ratchetOverflow ∈ stepFaults (s.axis a) d)
        ∧ (RatchetResult.applied out = false → ((s.oneStep a t d).axis a).pos = (s.axis a).pos
            ∧ ((s.oneStep a t d).axis a).sinceIndex = (s.axis a).sinceIndex
            ∧ (s.oneStep a t d).pool = s.pool)

/-- SAMPLE_TAKEN with nothing taken between its parts, on a counting axis: the filters, the previous code, then the stages of
R15 by what stage 1 decodes: each raw step in turn, the index event, the faults in the order of R18. In particular a sample
that decodes to one step, on an axis with policy ANY, no debt, no index mark and no ARMED entry, moves the axis by that step
and tells the subscribers of a changed motion; nothing else changes (R15, R33, R35 to R38, R60). -/
def Obligations.SampleRunsTheFourStages : Prop :=
  (∀ (s : State) (a : AxisId) (ph : ClkPhase) (rawA rawB rawZ : Level) (A B Z : FilterRec),
    s.SampleDue a ph → (s.axis a).run = .counting → (s.axis a).cfg.mode ≠ .off →
    FilterStep (s.axis a).cfg.depth rawA (s.axis a).filtA A →
    FilterStep (s.axis a).cfg.depth rawB (s.axis a).filtB B →
    FilterStep (s.axis a).cfg.depth rawZ (s.axis a).filtZ Z →
    let m := (s.axis a).cfg.mode
    let code : Code := ⟨A.accepted, B.accepted, if m = .quadIndex ∨ m = .hall3 then Z.accepted else .low⟩
    let dec := decodeSample (s.axis a) code
    let coded := s.modAxis a (fun r => { r with filtA := A, filtB := B, filtZ := Z, prevCode := some code })
    let stepped : State × List FaultKind := dec.steps.foldl
      (fun x d => (x.1.oneStep a s.time d, x.2 ++ stepFaults (x.1.axis a) d)) (coded, [])
    let indexed := if dec.index then stepped.1.indexEvent a s.time else stepped.1
    exec (.sampleTaken a ⟨ph, []⟩ rawA rawB rawZ) s
      = .next ((dec.fault.toList ++ stepped.2).foldl (fun u k => u.sensorFault a s.time k) indexed))
  ∧ ∀ (s : State) (a : AxisId) (ph : ClkPhase) (rawA rawB rawZ : Level) (A B Z : FilterRec) (d : Dir),
    s.SampleDue a ph → (s.axis a).run = .counting → (s.axis a).cfg.mode ≠ .off → (s.axis a).cfg.mode ≠ .quadIndex →
    (s.axis a).cfg.policy = .any → (s.axis a).debt = 0 →
    FilterStep (s.axis a).cfg.depth rawA (s.axis a).filtA A →
    FilterStep (s.axis a).cfg.depth rawB (s.axis a).filtB B →
    FilterStep (s.axis a).cfg.depth rawZ (s.axis a).filtZ Z →
    let code : Code := ⟨A.accepted, B.accepted, if (s.axis a).cfg.mode = .hall3 then Z.accepted else .low⟩
    decodeSample (s.axis a) code = ⟨[d], false, none⟩ →
    stepWraps (s.axis a).cfg.cpr d (s.axis a).pos = false →
    (∀ i e, (s.slot i).entry = some e → e.axis = a → e.state = .held) →
    let dir : LastDir := if d = .forward then .forward else .reverse
    let motion : Motion := if d = .forward then .forward else .reverse
    let moved := s.modAxis a (fun r => { r with
      filtA := A
      filtB := B
      filtZ := Z
      prevCode := some code
      pos := stepPosition r.cfg.cpr d r.pos
      lastDir := dir
      motion := motion
      lastStep := some s.time
      lastInterval := if r.timingRun = .opened ∧ r.lastDir = dir
        then r.lastStep.map (fun t0 => min 4294967295 (s.time - t0).toNat) else none
      timingRun := .opened
      stall := if r.cfg.stallMs = 0 then r.stall else some (s.time + BitVec.ofNat 48 (r.cfg.stallMs * 10000))
      sinceIndex := if d = .forward then min 2147483647 (r.sinceIndex + 1) else max (-2147483648) (r.sinceIndex - 1) })
    exec (.sampleTaken a ⟨ph, []⟩ rawA rawB rawZ) s
      = .next (if (s.axis a).motion = motion then moved else moved.toldSubscribers (8 + a.1) (.motionChanged a motion))

/-- A sample may be made in parts: making one part and then finishing is finishing (R15, R104), so parts with nothing else
between them change nothing. An edge or a SNAP taken between two parts finds the state that the parts before it left, and
takes its number there; its snapshot shows the axis as it was before the sample, or as it is after it (R126, R129). A sample
of another axis begun between two parts, and its own parts, leave what they leave one after another, but for the axis parts
of snapshots; and an edge or a SNAP taken while both are under way shows each of the two axes on a side of its own. Whatever is taken between, SAMPLE_TAKEN completes, and touches no claim and no timebase. That the sender says
what is taken between the parts is the model's choice (entry 18). -/
def Obligations.SampleIsTakenInParts : Prop :=
  (∀ (s : State) (r : SampleRun), (s.advance r).1.finishSample (s.advance r).2 = s.finishSample r)
  ∧ (∀ (s : State) (a : AxisId) (ph : ClkPhase) (rawA rawB rawZ : Level) (between : List Between),
      (∀ x ∈ between, ∃ b late, x = .go b late) →
      exec (.sampleTaken a ⟨ph, between⟩ rawA rawB rawZ) s = exec (.sampleTaken a ⟨ph, []⟩ rawA rawB rawZ) s)
  ∧ (∀ (s : State) (a : AxisId) (ph : ClkPhase) (rawA rawB rawZ : Level) (s0 : State) (r0 : SampleRun) (k : Nat),
      s.SampleDue a ph → s.beginSample a rawA rawB rawZ = (s0, some r0) →
      let made : State × SampleRun := (fun x => x.1.advance x.2)^[k] (s0, r0)
      let parts : List Between := List.replicate k (.go a [])
      let part (r : AxisRec) : Option AxisPart :=
        if r.run = .counting then some ⟨r.pos, r.lastDir, r.motion, r.refState, r.epoch, r.lastStep, r.lastInterval, r.faults.set⟩
        else none
      (∀ (c : CapId) (raw : Level) (p : PortId) (late : List AxisId),
        ∀ x ∈ [(Between.edge c raw late, Instr.captureEdge c raw), (Between.snap p late, Instr.snap p)],
        ∀ v, exec x.2 made.1 = .next v →
        let t := v.finishSample made.2
        let shown (y : Snapshot) : Snapshot :=
          if y.number = made.1.nextCapture then { y with parts := upd y.parts a (part (if a ∈ late then t.axis a else s.axis a)) }
          else y
        exec (.sampleTaken a ⟨ph, parts ++ [x.1]⟩ rawA rawB rawZ) s
          = .next (if v.nextCapture = made.1.nextCapture then t else { t with snaps := t.snaps.map (fun y => y.map shown) }))
      ∧ ∀ (b : AxisId) (rB1 rB2 rB3 : Level) (u0 : State) (q0 : SampleRun) (n : Nat) (late : List AxisId),
        b ≠ a → made.1.SampleDue b ph → made.1.beginSample b rB1 rB2 rB3 = (u0, some q0) →
        let other : State × SampleRun := (fun x => x.1.advance x.2)^[n] (u0, q0)
        let t := (other.1.finishSample made.2).finishSample other.2
        (∃ snaps : Vector (Option Snapshot) 16,
          exec (.sampleTaken a ⟨ph, parts ++ .start b rB1 rB2 rB3 :: List.replicate n (.go b late)⟩ rawA rawB rawZ) s
              = .next { t with snaps := snaps }
            ∧ ∀ i, (snaps.get i).map (fun y => (y.number, y.time, y.cause, y.readers))
                = (t.snaps.get i).map (fun y => (y.number, y.time, y.cause, y.readers)))
        ∧ ∀ (c : CapId) (raw : Level) (p : PortId) (sides : List AxisId),
          ∀ x ∈ [(Between.edge c raw sides, Instr.captureEdge c raw), (Between.snap p sides, Instr.snap p)],
          ∀ v, exec x.2 other.1 = .next v → v.nextCapture ≠ other.1.nextCapture →
          let t := (v.finishSample made.2).finishSample other.2
          ∃ snaps : Vector (Option Snapshot) 16,
            exec (.sampleTaken a ⟨ph, parts ++ .start b rB1 rB2 rB3 :: List.replicate n (.go b late) ++ [x.1]⟩ rawA rawB rawZ) s
                = .next { t with snaps := snaps }
              ∧ ∀ i y, snaps.get i = some y → y.number = other.1.nextCapture →
                  y.parts.get a = part (if a ∈ sides then t.axis a else s.axis a)
                    ∧ y.parts.get b = part (if b ∈ sides then t.axis b else made.1.axis b))
  ∧ ∀ (s : State) (a : AxisId) (ph : ClkPhase) (rawA rawB rawZ : Level) (between : List Between),
      ∃ t, exec (.sampleTaken a ⟨ph, between⟩ rawA rawB rawZ) s = .next t
        ∧ t.claims = s.claims ∧ t.time = s.time ∧ t.qw = s.qw ∧ t.pending = s.pending ∧ t.draws = s.draws

/-- An applied step moves the absolute position by one count in its direction, except at an end of the turns range, where it
wraps to the other end; the result is always in range (R33, R34). -/
def Obligations.StepsMovePositionByOneCount : Prop :=
  ∀ (cpr : Nat) (p : Position) (d : Dir), 2 ≤ cpr → p.wellFormed cpr = true →
    let q := stepPosition cpr d p
    let atEnd : Prop := d = .forward ∧ p = ⟨8388607, cpr - 1⟩ ∨ d = .reverse ∧ p = ⟨-8388608, 0⟩
    q.wellFormed cpr = true
      ∧ (d = .forward → p.count + 1 < cpr → q = ⟨p.turns, p.count + 1⟩)
      ∧ (d = .reverse → 0 < p.count → q = ⟨p.turns, p.count - 1⟩)
      ∧ (¬ atEnd → q.turns * cpr + q.count = p.turns * cpr + p.count + (if d = .forward then 1 else -1))
      ∧ (d = .forward → p = ⟨8388607, cpr - 1⟩ → q = ⟨-8388608, 0⟩)
      ∧ (d = .reverse → p = ⟨-8388608, 0⟩ → q = ⟨8388607, cpr - 1⟩)
      ∧ (stepWraps cpr d p = true ↔ atEnd)

/-! ### Axis commands -/

/-- The checks of Table 2.2 in order: form, claim, state, values; a refused command changes nothing but its port's request and
response queues (R26, R27, R47). -/
def Obligations.AxisCommandsAreCheckedInOrder : Prop :=
  ∀ (s : State) (p : PortId) (tag : Byte) (args : List Byte),
    let holds (a : AxisId) : Prop := (s.claim (.axis a)).holder = some p
    let counts (a : AxisId) : Prop := (s.axis a).run = .counting
    let refused (i : Instr) (code : Byte) : Prop := exec i s = .next (s.answered p tag [code])
    (∀ x ∈ [(Instr.startAxis p, 0x11#8), (Instr.stopAxis p, 0x12#8), (Instr.clearFaults p, 0x14#8),
        (Instr.dropReference p, 0x1A#8)], s.asks p x.2 tag args →
      ((∀ a : AxisId, args ≠ [BitVec.ofNat 8 a.1]) → refused x.1 0x03#8)
      ∧ ∀ a : AxisId, args = [BitVec.ofNat 8 a.1] → ¬ holds a → refused x.1 0x04#8)
    ∧ (s.asks p 0x13#8 tag args → (∀ a : AxisId, args ≠ [BitVec.ofNat 8 a.1]) → refused (.readAxis p) 0x03#8)
    ∧ (∀ a : AxisId, args = [BitVec.ofNat 8 a.1] → holds a →
        (s.asks p 0x11#8 tag args → counts a ∨ (s.axis a).cfg.mode = .off → refused (.startAxis p) 0x06#8)
        ∧ (s.asks p 0x12#8 tag args → ¬ counts a → refused (.stopAxis p) 0x06#8)
        ∧ (s.asks p 0x1A#8 tag args → ¬ counts a → refused (.dropReference p) 0x06#8))
    ∧ (∀ half : ClkPhase, s.asks p 0x10#8 tag args →
        (parseConfig args = none → refused (.setAxisConfig ⟨p, half⟩) 0x03#8)
        ∧ ∀ a c, parseConfig args = some (a, c) →
          (¬ holds a → refused (.setAxisConfig ⟨p, half⟩) 0x04#8)
          ∧ (holds a → counts a → refused (.setAxisConfig ⟨p, half⟩) 0x06#8)
          ∧ (holds a → ¬ counts a → c.wellFormed = false → refused (.setAxisConfig ⟨p, half⟩) 0x03#8))
    ∧ (s.asks p 0x18#8 tag args →
        (parseArm args = none → refused (.armReference p) 0x03#8)
        ∧ ∀ a o n, parseArm args = some (a, o, n) →
          (¬ holds a → refused (.armReference p) 0x04#8)
          ∧ (holds a → ¬ counts a ∨ (s.axis a).cfg.mode ≠ .quadIndex → refused (.armReference p) 0x06#8)
          ∧ (holds a → counts a → (s.axis a).cfg.mode = .quadIndex → (s.axis a).cfg.cpr ≤ o →
              refused (.armReference p) 0x03#8))
    ∧ (s.asks p 0x19#8 tag args →
        (parseSetReference args = none → refused (.setReference p) 0x03#8)
        ∧ ∀ a q, parseSetReference args = some (a, q) →
          (¬ holds a → refused (.setReference p) 0x04#8)
          ∧ (holds a → ¬ counts a → refused (.setReference p) 0x06#8)
          ∧ (holds a → counts a → (s.axis a).cfg.cpr ≤ q.count → refused (.setReference p) 0x03#8))

/-- An accepted SET_AXIS_CONFIG: with mode and CPR unchanged the record is replaced, its divider is in force from the next CLKIN
period on (R1), and what R4 and R14 clear is cleared; with either changed the axis also loses its place, its reference and every entry booked on it, with the notices of R28 and
R98; the claim is renewed and the response is OK. That the half of the tick it is taken in is an operand is the model's choice
(entry 16). -/
def Obligations.SetAxisConfigReplacesTheRecord : Prop :=
  ∀ (s : State) (p : PortId) (half : ClkPhase) (tag : Byte) (args : List Byte) (a : AxisId) (c : AxisConfig),
    s.asks p 0x10#8 tag args → parseConfig args = some (a, c) → (s.claim (.axis a)).holder = some p →
    (s.axis a).run = .disabled → c.wellFormed = true →
    let old := (s.axis a).cfg
    let clear (f : FilterRec) : FilterRec :=
      if old.divider = c.divider ∧ old.depth = c.depth ∧ old.window = c.window then f else ⟨f.accepted, 0⟩
    let lost (q : PortId) : Nat := s.ownedWhere q (fun e => decide (e.axis = a))
    let dividers : TickDividers :=
      ⟨(s.axis a).dividers.first, if half = .first then c.divider else (s.axis a).dividers.second⟩
    let kept := s.modAxis a (fun r => { r with
      cfg := c
      dividers := dividers
      filtA := clear r.filtA
      filtB := clear r.filtB
      filtZ := clear r.filtZ
      debt := if old.policy = c.policy then r.debt else 0 })
    let emptied := s.modAxis a (fun r => { r with
      cfg := c
      dividers := dividers
      filtA := clear r.filtA
      filtB := clear r.filtB
      filtZ := clear r.filtZ
      debt := 0
      pos := ⟨0, 0⟩
      sinceIndex := 0
      refOffset := 0
      refTurns := 0
      lastDrift := none
      refState := .unreferenced })
    let changed := if (s.axis a).refState = .unreferenced then emptied
      else emptied.toldSubscribers a.1 (.referenceChanged a .unreferenced (s.axis a).epoch)
    let freed := changed.withoutEntries (fun e => decide (e.axis = a))
    let cancelled : State := { freed with ports := Vector.ofFn (fun q =>
      if lost q = 0 then freed.port q else (freed.port q).accept (.entriesCancelled a (lost q))) }
    exec (.setAxisConfig ⟨p, half⟩) s
      = .next (((if old.mode = c.mode ∧ old.cpr = c.cpr then kept else cancelled).used (.axis a)).answered p tag [0x00#8])

/-- An accepted START_AXIS (R31, R72). An accepted STOP_AXIS: the run state, the reference state by Table 2.4, the stall timer;
the other fields of the axis are kept, but for the previous code, which is absent on a DISABLED axis (R7; that it goes at the
stop is entry 10); the claim is renewed (R32, R72). -/
def Obligations.StartAndStopOfAnAxis : Prop :=
  (∀ (s : State) (p : PortId) (tag : Byte) (a : AxisId),
    s.asks p 0x11#8 tag [BitVec.ofNat 8 a.1] → (s.claim (.axis a)).holder = some p →
    (s.axis a).run = .disabled → (s.axis a).cfg.mode ≠ .off →
    let started := s.modAxis a (fun r => { r with
      run := .counting
      prevCode := none
      lastDir := .none
      motion := .stopped
      lastInterval := none
      timingRun := .closed
      stall := none })
    let told := if (s.axis a).motion = .stopped then started
      else started.toldSubscribers (8 + a.1) (.motionChanged a .stopped)
    exec (.startAxis p) s = .next ((told.used (.axis a)).answered p tag [0x00#8]))
  ∧ ∀ (s : State) (p : PortId) (tag : Byte) (a : AxisId),
    s.asks p 0x12#8 tag [BitVec.ofNat 8 a.1] → (s.claim (.axis a)).holder = some p → (s.axis a).run = .counting →
    let r := s.axis a
    let after : RefState :=
      if r.refState = .referenced ∨ r.refState = .suspect then .lost
      else if r.refState = .seeking then .unreferenced else r.refState
    let stopped := (s.modAxis a (fun r => { r with run := .disabled, prevCode := none, stall := none })).changeReference a after r.epoch
    exec (.stopAxis p) s = .next ((stopped.used (.axis a)).answered p tag [0x00#8])

/-- A change of reference state or epoch: the two fields are set, the axis's entries are armed when REFERENCED is entered and
held when it is left, and one REFERENCE_CHANGED reaches the subscribers exactly if state or epoch changed (R45, R46, R96,
R97). -/
def Obligations.ReferenceChangeArmsHoldsAndTells : Prop :=
  ∀ (s : State) (a : AxisId) (st : RefState) (ep : BitVec 16),
    let r := s.axis a
    let set := s.modAxis a (fun r => { r with refState := st, epoch := ep })
    let handed :=
      if r.refState ≠ .referenced ∧ st = .referenced then set.entriesMarked a .armed
      else if r.refState = .referenced ∧ st ≠ .referenced then set.entriesMarked a .held
      else set
    s.changeReference a st ep
      = if r.refState ≠ st ∨ r.epoch ≠ ep then handed.toldSubscribers a.1 (.referenceChanged a st ep) else handed

/-- CLEAR_FAULTS from the holder of the axis claim empties the fault record in either run state; the reference state is kept
and no notice is raised; from any other port it is refused with NOT_HOLDER (R41). -/
def Obligations.ClearFaultsEmptiesTheRecord : Prop :=
  ∀ (s : State) (p : PortId) (tag : Byte) (a : AxisId), s.asks p 0x14#8 tag [BitVec.ofNat 8 a.1] →
    ((s.claim (.axis a)).holder = some p → exec (.clearFaults p) s
      = .next (((s.modAxis a (fun r => { r with faults := ⟨0#7, none, 0⟩ })).used (.axis a)).answered p tag [0x00#8]))
    ∧ ((s.claim (.axis a)).holder ≠ some p → exec (.clearFaults p) s = .next (s.answered p tag [0x04#8]))

/-- Accepted ARM_REFERENCE and DROP_REFERENCE: offset and turns are stored and the axis seeks (R48, R49); the reference is
given up and every other reference field is kept (R51). An accepted SET_REFERENCE: the position is set, the distance and the
last drift are cleared, the epoch grows by one, the axis is REFERENCED, and the response carries the new epoch (R50,
R64). -/
def Obligations.ReferenceCommandsTakeEffect : Prop :=
  (∀ (s : State) (p : PortId) (tag : Byte) (args : List Byte) (a : AxisId),
    (s.claim (.axis a)).holder = some p → (s.axis a).run = .counting →
    (∀ o n, s.asks p 0x18#8 tag args → parseArm args = some (a, o, n) → (s.axis a).cfg.mode = .quadIndex →
      o < (s.axis a).cfg.cpr →
      exec (.armReference p) s = .next
        ((((s.modAxis a (fun r => { r with refOffset := o, refTurns := n })).changeReference a .seeking
          (s.axis a).epoch).used (.axis a)).answered p tag [0x00#8]))
    ∧ (s.asks p 0x1A#8 tag args → args = [BitVec.ofNat 8 a.1] →
      exec (.dropReference p) s = .next
        (((s.changeReference a .unreferenced (s.axis a).epoch).used (.axis a)).answered p tag [0x00#8])))
  ∧ ∀ (s : State) (p : PortId) (tag : Byte) (args : List Byte) (a : AxisId) (q : Position),
    s.asks p 0x19#8 tag args → parseSetReference args = some (a, q) → (s.claim (.axis a)).holder = some p →
    (s.axis a).run = .counting → q.count < (s.axis a).cfg.cpr →
    let ep := (s.axis a).epoch + 1#16
    let set := (s.modAxis a (fun r => { r with pos := q, sinceIndex := 0, lastDrift := none })).changeReference a
      .referenced ep
    exec (.setReference p) s
      = .next ((set.used (.axis a)).answered p tag [0x00#8, BitVec.ofNat 8 (ep.toNat / 256), BitVec.ofNat 8 ep.toNat])

/-- STALL_EXPIRY at the tick of the stall timer (R38) and PULSE_END at the tick of the pulse end (R111); at any other tick, or
with no timer running, nothing changes (the model's choice, entry 4). -/
def Obligations.StallsAndPulsesEndAtTheirTick : Prop :=
  (∀ (s : State) (a : AxisId),
    ((s.axis a).stall = some s.time →
      exec (.stallExpiry a) s = .next
        ((s.modAxis a (fun r => { r with
            motion := .stopped
            lastInterval := none
            timingRun := .closed
            stall := none })).toldSubscribers (8 + a.1) (.motionChanged a .stopped)))
    ∧ ((s.axis a).stall ≠ some s.time → exec (.stallExpiry a) s = .next s))
  ∧ ∀ (s : State) (l : LineId),
    ((s.line l).pulseEnd = some s.time → exec (.pulseEnd l) s = .next
      (s.modLine l (fun r => { level := (s.claim (.line l)).idle, pulseEnd := none, activations := r.activations })))
    ∧ ((s.line l).pulseEnd ≠ some s.time → exec (.pulseEnd l) s = .next s)

/-! ### Referencing -/

/-- The drift is the signed distance from the offset the short way round: above -CPR/2, at most CPR/2, and different from
count minus offset by a multiple of CPR (R55). An index event at stage 3, by the reference state in force: it establishes,
confirms, corrects, recovers, or is a drift beyond tolerance; in every state the since-index distance is then 0 (R53, R54,
R56 to R59). -/
def Obligations.IndexEventByReferenceState : Prop :=
  (∀ (cpr offset count : Nat), 0 < cpr →
    let d := driftOf cpr offset count
    2 * d ≤ cpr ∧ -(cpr : Int) < 2 * d ∧ ∃ k : Int, (count : Int) - offset = d + k * cpr)
  ∧ ∀ (s : State) (a : AxisId) (t : Time),
    let r := s.axis a
    let d := driftOf r.cfg.cpr r.refOffset r.pos.count
    let zero (u : State) : State := u.modAxis a (fun r => { r with sinceIndex := 0 })
    let noted := s.modAxis a (fun r => { r with lastDrift := some d })
    let beyond := zero (noted.fault a .indexDrift t (if r.refState = .referenced then .suspect else .lost))
    let target (q : Position) : Prop :=
      q.wellFormed r.cfg.cpr = true ∧ q.turns * r.cfg.cpr + q.count = r.pos.turns * r.cfg.cpr + r.pos.count - d
    (r.refState = .unreferenced ∨ r.refState = .lost → s.indexEvent a t = zero s)
    ∧ (r.refState = .seeking → s.indexEvent a t = zero
        ((s.modAxis a (fun r => { r with pos := ⟨r.refTurns, r.refOffset⟩, lastDrift := none })).changeReference a
          .referenced (r.epoch + 1#16)))
    ∧ (r.refState = .referenced ∨ r.refState = .suspect →
        (r.cfg.tolerance < d.natAbs → s.indexEvent a t = beyond)
        ∧ (d.natAbs ≤ r.cfg.tolerance →
            (r.cfg.correction = .check → s.indexEvent a t = zero (noted.changeReference a .referenced r.epoch))
            ∧ (r.cfg.correction = .snap →
                ((¬ ∃ q, target q) → s.indexEvent a t = beyond)
                ∧ ∀ q, target q → s.indexEvent a t = zero
                    ((s.modAxis a (fun r => { r with pos := q, lastDrift := some d })).changeReference a .referenced
                      r.epoch))))

/-- Stage 2(e) of an applied step: the distance counts it, saturating, and the missed-index check then acts exactly in
QUAD_INDEX, in REFERENCED or SUSPECT, when the distance exceeds CPR plus tolerance (R60, R61). -/
def Obligations.MissedIndexCheck : Prop :=
  ∀ (s : State) (a : AxisId) (d : Dir) (t : Time),
    let r := s.axis a
    let n : Int := if d = .forward then min 2147483647 (r.sinceIndex + 1) else max (-2147483648) (r.sinceIndex - 1)
    let counted := s.modAxis a (fun r => { r with sinceIndex := n })
    let missed : Prop := r.cfg.mode = .quadIndex ∧ (r.refState = .referenced ∨ r.refState = .suspect)
      ∧ r.cfg.cpr + r.cfg.tolerance < n.natAbs
    (missed → (s.countStep a d).missedIndex a t
      = (s.modAxis a (fun r => { r with sinceIndex := if 0 < n then n - r.cfg.cpr else n + r.cfg.cpr })).fault a
          .indexMissing t (if r.refState = .referenced then .suspect else .lost))
    ∧ (¬ missed → (s.countStep a d).missedIndex a t = counted)

/-- A fault: it is entered in the record (set, first fault, saturating count), the reference state changes, AXIS_FAULT with
the set reaches the subscribers after that; a sensor fault leaves the states of Tables 1.11 and 1.12 (R18 to R20, R40,
R62). -/
def Obligations.FaultIsEnteredThenActsThenTells : Prop :=
  (faultMask .quadSkip = 1#7 ∧ faultMask .hallSkip = 2#7 ∧ faultMask .ratchetOverflow = 4#7 ∧ faultMask .hallCode = 8#7
    ∧ faultMask .turnRange = 16#7 ∧ faultMask .indexDrift = 32#7 ∧ faultMask .indexMissing = 64#7)
  ∧ ∀ (s : State) (a : AxisId) (k : FaultKind) (t : Time),
    let r := s.axis a
    let entered : FaultRec :=
      { set := r.faults.set ||| faultMask k
        first := if r.faults.set = 0#7 then some (k, t) else r.faults.first
        count := min 255 (r.faults.count + 1) }
    let acted (st : RefState) : State :=
      ((s.modAxis a (fun r => { r with faults := entered })).changeReference a st r.epoch).toldSubscribers (4 + a.1)
        (.axisFault a entered.set)
    (∀ st, s.fault a k t st = acted st)
    ∧ (k = .quadSkip ∨ k = .hallSkip ∨ k = .ratchetOverflow → s.sensorFault a t k
        = acted (if r.refState = .referenced then .suspect else if r.refState = .suspect then .lost else r.refState))
    ∧ (k = .hallCode ∨ k = .turnRange → s.sensorFault a t k
        = acted (if r.refState = .referenced ∨ r.refState = .suspect then .lost else r.refState))

/-! ### Claims and lines -/

/-- A CLAIM on a free subject is granted, and one from the holder renews; lease, expiry time, idle level and the level of a
line as R67 and R68 give them; the response carries the lease and the expiry time. The refusals of CLAIM come in the order
of R66: form, lease, HELD_BY_OTHER with the holder and the remaining lease in whole ms, rounded up (R69); they change nothing
else. -/
def Obligations.ClaimIsGrantedRenewedOrRefused : Prop :=
  (∀ (s : State) (p : PortId) (tag : Byte) (args : List Byte) (subj : Subject) (lease : Nat) (idle : Level),
    s.asks p 0x20#8 tag args → parseClaim args = some (subj, lease, idle) → leaseWellFormed lease = true →
    let c := s.claim subj
    let stored := s.modClaim subj (fun _ => ⟨some p, lease, leaseEnd s.time lease, idle⟩)
    let body := 0x00#8 :: (beBytes 2 lease ++ (match leaseEnd s.time lease with
      | none => []
      | some e => beBytes 6 e.toNat))
    (c.holder = none → exec (.claim p) s = .next ((match subj with
      | .axis _ => stored
      | .line l => stored.modLine l (fun r => { r with level := idle })).answered p tag body))
    ∧ (c.holder = some p → exec (.claim p) s = .next ((match subj with
      | .axis _ => stored
      | .line l => stored.modLine l (fun r =>
          if r.pulseEnd ≠ none ∨ c.idle = idle then r
          else { r with level := if r.level = c.idle then idle else idle.flip })).answered p tag body)))
  ∧ ∀ (s : State) (p : PortId) (tag : Byte) (args : List Byte), s.asks p 0x20#8 tag args →
    (parseClaim args = none → exec (.claim p) s = .next (s.answered p tag [0x03#8]))
    ∧ ∀ subj lease idle, parseClaim args = some (subj, lease, idle) →
      (leaseWellFormed lease = false → exec (.claim p) s = .next (s.answered p tag [0x03#8]))
      ∧ ∀ q, leaseWellFormed lease = true → (s.claim subj).holder = some q → q ≠ p →
        exec (.claim p) s = .next (s.answered p tag (match (s.claim subj).expiry with
          | none => [0x05#8, BitVec.ofNat 8 q.1, 0#8]
          | some e => [0x05#8, BitVec.ofNat 8 q.1, 1#8] ++ beBytes 2 (((e - s.time).toNat + 9999) / 10000)))

/-- RELEASE: form, then the holder alone; it frees the subject by R71, and the response carries the number of entries
cancelled (R70). -/
def Obligations.ReleaseFreesTheSubject : Prop :=
  ∀ (s : State) (p : PortId) (tag : Byte) (args : List Byte), s.asks p 0x21#8 tag args →
    (parseSubject args = none → exec (.release p) s = .next (s.answered p tag [0x03#8]))
    ∧ (∀ subj, parseSubject args = some subj → (s.claim subj).holder ≠ some p →
        exec (.release p) s = .next (s.answered p tag [0x04#8]))
    ∧ (∀ a, parseSubject args = some (.axis a) → (s.claim (.axis a)).holder = some p →
        exec (.release p) s
          = .next ((s.modClaim (.axis a) (fun _ => ⟨none, 0, none, .low⟩)).answered p tag [0x00#8, 0x00#8]))
    ∧ ∀ l, parseSubject args = some (.line l) → (s.claim (.line l)).holder = some p →
        let named (e : Entry) : Bool := decide (e.owner = p) && decide (e.action.line? = some l)
        exec (.release p) s
          = .next ((((s.modClaim (.line l) (fun _ => ⟨none, 0, none, .low⟩)).modLine l
              (fun r => { r with level := .low, pulseEnd := none })).withoutEntries named).answered p tag
                [0x00#8, BitVec.ofNat 8 (s.ownedWhere p named)])

/-- LEASE_EXPIRY at the tick of the expiry time: the subject is freed by R71; the former holder is told CLAIM_LOST and then,
in axis order, ENTRIES_CANCELLED for each axis that lost entries (R73). At any other tick nothing changes (entry 4). -/
def Obligations.LeaseExpiryFreesAndTells : Prop :=
  ∀ (s : State) (subj : Subject),
    ((s.claim subj).expiry ≠ some s.time → exec (.leaseExpiry subj) s = .next s)
    ∧ ∀ q, (s.claim subj).expiry = some s.time → (s.claim subj).holder = some q →
      match subj with
      | .axis a => exec (.leaseExpiry (.axis a)) s = .next
          ((s.modClaim (.axis a) (fun _ => ⟨none, 0, none, .low⟩)).modPort q (fun r => r.accept (.claimLost (.axis a))))
      | .line l =>
        let named (e : Entry) : Bool := decide (e.owner = q) && decide (e.action.line? = some l)
        let lost (a : AxisId) : Nat := s.ownedWhere q (fun e => named e && decide (e.axis = a))
        let tell (a : AxisId) (r : PortRec) : PortRec := if lost a = 0 then r else r.accept (.entriesCancelled a (lost a))
        exec (.leaseExpiry (.line l)) s = .next
          ((((s.modClaim (.line l) (fun _ => ⟨none, 0, none, .low⟩)).modLine l
            (fun r => { r with level := .low, pulseEnd := none })).withoutEntries named).modPort q
              (fun r => tell 3 (tell 2 (tell 1 (tell 0 (r.accept (.claimLost (.line l))))))))

/-- DRIVE_LINE: form, claim, width; an accepted one acts by Table 6.3 with now the device time, renews the line claim, and its
response carries the line record it left (R110, R115). -/
def Obligations.DriveLineActsByTable63 : Prop :=
  ∀ (s : State) (p : PortId) (tag : Byte) (args : List Byte), s.asks p 0x38#8 tag args →
    (parseDrive args = none → exec (.driveLine p) s = .next (s.answered p tag [0x03#8]))
    ∧ ∀ l d w, parseDrive args = some (l, d, w) →
      let fits : Prop := if d = .pulse then 1 ≤ w else w = 0
      let idle := (s.claim (.line l)).idle
      let driven := s.modLine l (fun r => match d with
        | .active => { level := idle.flip, pulseEnd := none,
                       activations := if r.level = idle.flip then r.activations else r.activations + 1#32 }
        | .idle => { level := idle, pulseEnd := none, activations := r.activations }
        | .pulse => { level := idle.flip, pulseEnd := some (s.time + BitVec.ofNat 48 (w * 10)),
                      activations := r.activations + 1#32 })
      ((s.claim (.line l)).holder ≠ some p → exec (.driveLine p) s = .next (s.answered p tag [0x04#8]))
      ∧ ((s.claim (.line l)).holder = some p → ¬ fits → exec (.driveLine p) s = .next (s.answered p tag [0x03#8]))
      ∧ ((s.claim (.line l)).holder = some p → fits →
          exec (.driveLine p) s
            = .next ((driven.used (.line l)).answered p tag (0x00#8 :: driven.lineRecordBytes l)))

/-! ### The compare schedule -/

/-- An accepted BOOK: while the accounting law holds, room for the port means a FREE slot; the entry takes the lowest one, its
fields from the arguments, the next serial, ARMED or HELD by the reference state, and h_p grows by one; a line action
renews the line claim; the response carries handle, state and h_p (R80, R81, R89). Where the next serial has reached 2^32
the axis is renumbered first (R86, `RenumberingKeepsTheOrder`). -/
def Obligations.BookPlacesTheEntry : Prop :=
  ∀ (s : State) (p : PortId) (tag : Byte) (args : List Byte) (b : BookArgs),
    s.PoolLaw → s.asks p 0x30#8 tag args → parseBook args = some b →
    (BookNamesLine b → (s.claim (.line b.line)).holder = some p) → BookInRange (s.axis b.axis).cfg.cpr b →
    (s.booked.get p < 8 ∨ s.sharedPlaces < 40) →
    let ready := if s.nextSerial.get b.axis = 4294967296 then s.renumber b.axis else s
    ∃ i, (s.slot i).entry = none ∧ (∀ j, j < i → (s.slot j).entry ≠ none) ∧
      let st : EntryState := if (s.axis b.axis).refState = .referenced then .armed else .held
      let e : Entry :=
        { owner := p
          axis := b.axis
          target := b.target
          qual := b.qual
          action := match b.action with
            | .noticeOnly => .noticeOnly
            | .pulse => .pulse b.line b.width
            | .setActive => .setActive b.line
            | .setIdle => .setIdle b.line
            | .toggle => .toggle b.line
            | .capture => .capture b.share
          notify := b.notify
          periodic := if b.interval = 0 then none else some ⟨b.interval, b.repeats⟩
          state := st
          fireCount := 0
          serial := ready.nextSerial.get b.axis }
      let placed : State := { ready with
        pool := upd ready.pool i ⟨(s.slot i).gen, some e⟩
        booked := upd s.booked p (s.booked.get p + 1)
        nextSerial := upd ready.nextSerial b.axis (ready.nextSerial.get b.axis + 1) }
      let body := [0x00#8, BitVec.ofNat 8 i.1, (s.slot i).gen, if st = .armed then 1#8 else 0#8,
        BitVec.ofNat 8 (s.booked.get p + 1)]
      (BookNamesLine b → exec (.book p) s = .next ((placed.used (.line b.line)).answered p tag body))
      ∧ (¬ BookNamesLine b → exec (.book p) s = .next (placed.answered p tag body))

/-- The refusals of BOOK in the order of R87: form, line claim, values, capacity by R88 with h_p in the response; nothing else
changes. -/
def Obligations.BookIsCheckedInOrder : Prop :=
  ∀ (s : State) (p : PortId) (tag : Byte) (args : List Byte), s.asks p 0x30#8 tag args →
    (parseBook args = none → exec (.book p) s = .next (s.answered p tag [0x03#8]))
    ∧ ∀ b, parseBook args = some b →
      let claimed : Prop := BookNamesLine b → (s.claim (.line b.line)).holder = some p
      (¬ claimed → exec (.book p) s = .next (s.answered p tag [0x04#8]))
      ∧ (claimed → ¬ BookInRange (s.axis b.axis).cfg.cpr b → exec (.book p) s = .next (s.answered p tag [0x03#8]))
      ∧ (claimed → BookInRange (s.axis b.axis).cfg.cpr b → 8 ≤ s.booked.get p → 40 ≤ s.sharedPlaces →
          exec (.book p) s = .next (s.answered p tag [0x07#8, BitVec.ofNat 8 (s.booked.get p)]))

/-- A handle is resolved by the steps of R83, for CANCEL and READ_ENTRY alike; CANCEL frees the entry and answers its fire
count (R84, R91), READ_ENTRY answers the record and changes nothing (R94); CANCEL_AXIS frees the port's entries on the axis
and answers their number (R93). -/
def Obligations.HandlesResolveAndCancelsFree : Prop :=
  ∀ (s : State) (p : PortId) (tag : Byte) (args : List Byte),
    (∀ x ∈ [(Instr.cancel p, 0x31#8), (Instr.readEntry p, 0x33#8)], s.asks p x.2 tag args →
      ((∀ (i : SlotId) (g : Byte), args ≠ [BitVec.ofNat 8 i.1, g]) → exec x.1 s = .next (s.answered p tag [0x03#8]))
      ∧ ∀ (i : SlotId) (g : Byte), args = [BitVec.ofNat 8 i.1, g] →
        ((s.slot i).gen ≠ g → exec x.1 s = .next (s.answered p tag [0x0B#8]))
        ∧ ((s.slot i).gen = g → (s.slot i).entry = none → exec x.1 s = .next (s.answered p tag [0x0A#8]))
        ∧ ∀ e, (s.slot i).gen = g → (s.slot i).entry = some e → e.owner ≠ p →
            exec x.1 s = .next (s.answered p tag [0x0A#8]))
    ∧ (∀ (i : SlotId) (g : Byte) (e : Entry), args = [BitVec.ofNat 8 i.1, g] → (s.slot i).gen = g →
        (s.slot i).entry = some e → e.owner = p →
        (s.asks p 0x31#8 tag args → exec (.cancel p) s = .next
          (({ s with pool := upd s.pool i ⟨g + 1#8, none⟩, booked := upd s.booked p (s.booked.get p - 1) } : State).answered p
            tag (0x00#8 :: beBytes 2 e.fireCount)))
        ∧ (s.asks p 0x33#8 tag args → exec (.readEntry p) s = .next
          (s.answered p tag (0x00#8 :: entryRecordBytes ⟨i, g⟩ e))))
    ∧ (s.asks p 0x32#8 tag args →
        ((∀ a : AxisId, args ≠ [BitVec.ofNat 8 a.1]) → exec (.cancelAxis p) s = .next (s.answered p tag [0x03#8]))
        ∧ ∀ a : AxisId, args = [BitVec.ofNat 8 a.1] →
          let mine (e : Entry) : Bool := decide (e.owner = p) && decide (e.axis = a)
          exec (.cancelAxis p) s = .next
            ((s.withoutEntries mine).answered p tag [0x00#8, BitVec.ofNat 8 (s.ownedWhere p mine)]))

/-- The list of an axis holds exactly the entries booked on it, each once, by absolute target and then by serial; LIST_ENTRIES
answers the port's own from the start index on, at most sixteen, and changes nothing (R85, R95). -/
def Obligations.AxisListIsOrderedAndListed : Prop :=
  (∀ (s : State) (a : AxisId),
    (∀ i e, (i, e) ∈ s.axisList a ↔ (s.slot i).entry = some e ∧ e.axis = a)
    ∧ ((s.axisList a).map Prod.fst).Nodup
    ∧ (s.axisList a).Pairwise (fun x y =>
        absPos (s.axis a).cfg.cpr x.2.target < absPos (s.axis a).cfg.cpr y.2.target
          ∨ absPos (s.axis a).cfg.cpr x.2.target = absPos (s.axis a).cfg.cpr y.2.target ∧ x.2.serial ≤ y.2.serial))
  ∧ ∀ (s : State) (p : PortId) (tag : Byte) (args : List Byte), s.asks p 0x34#8 tag args →
      ((∀ (a : AxisId) (n : Byte), args ≠ [BitVec.ofNat 8 a.1, n]) →
        exec (.listEntries p) s = .next (s.answered p tag [0x03#8]))
      ∧ ∀ (a : AxisId) (n : Byte), args = [BitVec.ofNat 8 a.1, n] →
        let own := (s.axisList a).filter (fun x => decide (x.2.owner = p))
        let shown := (own.drop n.toNat).take 16
        exec (.listEntries p) s = .next (s.answered p tag
          ([0x00#8, BitVec.ofNat 8 own.length, BitVec.ofNat 8 shown.length]
            ++ shown.flatMap (fun x => [BitVec.ofNat 8 x.1.1, (s.slot x.1).gen])))

/-- The renumbering of an axis: its entries take the serials 0, 1, 2, … in list order, so the list keeps its order, the next
serial becomes their number, and nothing else changes (R86). -/
def Obligations.RenumberingKeepsTheOrder : Prop :=
  ∀ (s : State) (a : AxisId),
    let t := s.renumber a
    (t.axisList a).map Prod.fst = (s.axisList a).map Prod.fst
      ∧ (t.axisList a).map (fun x => x.2.serial) = List.range (s.axisList a).length
      ∧ t = { s with pool := t.pool, nextSerial := upd s.nextSerial a (s.axisList a).length }
      ∧ (∀ i, (t.slot i).gen = (s.slot i).gen
          ∧ (t.slot i).entry.map (fun e => { e with serial := 0 }) = (s.slot i).entry.map (fun e => { e with serial := 0 }))
      ∧ ∀ i e, (s.slot i).entry = some e → e.axis ≠ a → t.slot i = s.slot i

/-! ### Firing -/

/-- A raw step sets its fields and the debt; one that the ratchet applies moves the position by one count and is offered there,
after which the distance is counted and the missed-index check made (R15, R16, R35 to R37). The offer fires exactly the
entries of R103, one after another in increasing serial (R104). -/
def Obligations.AppliedStepIsOfferedWhereItLands : Prop :=
  (∀ (s : State) (a : AxisId) (t : Time) (d : Dir),
    let out := ratchet (s.axis a).cfg.policy d (s.axis a).debt
    let dir : LastDir := if d = .forward then .forward else .reverse
    let motion : Motion := if d = .forward then .forward else .reverse
    let stepped := s.modAxis a (fun r => { r with
      lastDir := dir
      motion := motion
      lastStep := some t
      lastInterval := if r.timingRun = .opened ∧ r.lastDir = dir
        then r.lastStep.map (fun t0 => min 4294967295 (t - t0).toNat) else none
      timingRun := .opened
      stall := if r.cfg.stallMs = 0 then r.stall else some (t + BitVec.ofNat 48 (r.cfg.stallMs * 10000)) })
    let told := if (s.axis a).motion = motion then stepped else stepped.toldSubscribers (8 + a.1) (.motionChanged a motion)
    let counted := told.modAxis a (fun r => { r with debt := out.debt })
    let landed := counted.modAxis a (fun r => { r with pos := stepPosition r.cfg.cpr d r.pos })
    (out.applied = false → s.oneStep a t d = counted)
      ∧ (out.applied = true → s.oneStep a t d = ((landed.offer a d t).countStep a d).missedIndex a t)
      ∧ stepFaults (s.axis a) d = (if out.overflow then [.ratchetOverflow] else [])
          ++ (if out.applied = true ∧ stepWraps (s.axis a).cfg.cpr d (s.axis a).pos = true then [.turnRange] else []))
  ∧ ∀ (s : State) (a : AxisId) (d : Dir) (t : Time),
    (∀ i, i ∈ s.matching a d ↔ ∃ e, (s.slot i).entry = some e ∧ e.axis = a ∧ e.state = .armed
      ∧ absPos (s.axis a).cfg.cpr e.target = absPos (s.axis a).cfg.cpr (s.axis a).pos
      ∧ (e.qual = .either ∨ e.qual = .fwd ∧ d = .forward ∨ e.qual = .rev ∧ d = .reverse))
    ∧ (s.matching a d).Nodup
    ∧ (s.matching a d).Pairwise (fun i j =>
        ∀ e f, (s.slot i).entry = some e → (s.slot j).entry = some f → e.serial ≤ f.serial)
    ∧ s.offer a d t = (s.matching a d).foldl (fun u i => u.fire a t i) s

/-- One firing, in its four parts: the action (a line action by Table 6.3 with now the fire time, or a capture request), the
count, COMPARE_FIRED with the ended mark if the entry asks for it, and the settling: a one-shot or spent entry, or one whose
new target leaves the turns range, is freed, and another takes its new target, its repeats and the next serial, after the
renumbering of R86 where that is due (R105 to R108, R113, R114). -/
def Obligations.FiringActsCountsTellsAndSettles : Prop :=
  ∀ (s : State) (a : AxisId) (t : Time) (i : SlotId) (e : Entry),
    (s.slot i).entry = some e → e.axis = a →
    let cpr := (s.axis a).cfg.cpr
    let h : Handle := ⟨i, (s.slot i).gen⟩
    let drive (l : LineId) (f : Level → LineRec → LineRec) : State := s.modLine l (f (s.claim (.line l)).idle)
    let acted : State := match e.action with
      | .noticeOnly => s
      | .pulse l w => drive l (fun idle r =>
          { level := idle.flip, pulseEnd := some (t + BitVec.ofNat 48 (w * 10)), activations := r.activations + 1#32 })
      | .setActive l => drive l (fun idle r =>
          { level := idle.flip, pulseEnd := none,
            activations := if r.level = idle.flip then r.activations else r.activations + 1#32 })
      | .setIdle l => drive l (fun idle r => { level := idle, pulseEnd := none, activations := r.activations })
      | .toggle l => drive l (fun idle r =>
          { level := r.level.flip, pulseEnd := none,
            activations := if r.level.flip = idle then r.activations else r.activations + 1#32 })
      | .capture share => (s.capture (.compare e.owner h) t
          (maskOf (fun q => decide (q = e.owner) || hasPort share q)) none).1
    let tell (ended : Bool) : State :=
      if e.notify then acted.modPort e.owner (fun r => r.accept (.compareFired a 1 h t ended)) else acted
    let target (q : Position) (interval : Int) : Prop :=
      q.wellFormed cpr = true ∧ q.turns * cpr + q.count = e.target.turns * cpr + e.target.count + interval
    let ends : Prop := e.periodic = none
      ∨ ∃ interval n, e.periodic = some ⟨interval, n⟩ ∧ (n ≤ 1 ∨ ¬ ∃ q, target q interval)
    (ends → s.fire a t i = { tell true with
        pool := upd s.pool i ⟨(s.slot i).gen + 1#8, none⟩
        booked := upd s.booked e.owner (s.booked.get e.owner - 1) })
    ∧ ∀ interval n q, e.periodic = some ⟨interval, n⟩ → 2 ≤ n → target q interval →
      let counted := min 65535 (e.fireCount + 1)
      let told : State := { tell false with
        pool := upd s.pool i ⟨(s.slot i).gen, some { e with fireCount := counted }⟩ }
      let ready := if s.nextSerial.get a = 4294967296 then told.renumber a else told
      s.fire a t i = { ready with
        pool := upd ready.pool i ⟨(s.slot i).gen, some { e with
          target := q
          periodic := some ⟨interval, if n = 65535 then 65535 else n - 1⟩
          fireCount := counted
          serial := ready.nextSerial.get a }⟩
        nextSerial := upd ready.nextSerial a (ready.nextSerial.get a + 1) }

/-! ### Captures -/

/-- A capture request: exhaustion, pruning of the candidates at the hold limit, then one of the three ways of R128, with the
notices to every candidate but a SNAP requester, the axis parts of R125, the next number and the hold counts (R124 to
R128). That the pruned candidates are told where none remains, too, is the model's reading of R137 (log entry 19). -/
def Obligations.CaptureEndsInOneOfThreeWays : Prop :=
  ∀ (s : State) (cause : Cause) (t : Time) (cands : PortMask) (requester : Option PortId),
    let told (m : PortId → Bool) (q : PortId) : Bool := m q && decide (requester ≠ some q)
    let full (q : PortId) : Bool := hasPort cands q && decide (8 ≤ s.holds.get q)
    let reader (q : PortId) : Bool := hasPort cands q && decide (s.holds.get q < 8)
    let pruned := s.told (told full) (.snapshotSkipped cause.cls 1 .holdLimit)
    let part (r : AxisRec) : Option AxisPart :=
      if r.run = .counting then some ⟨r.pos, r.lastDir, r.motion, r.refState, r.epoch, r.lastStep, r.lastInterval, r.faults.set⟩
      else none
    (281474976710656 ≤ s.nextCapture → s.capture cause t cands requester = (s, .exhausted))
    ∧ (s.nextCapture < 281474976710656 →
      ((∀ q, reader q = false) → s.capture cause t cands requester = (pruned, .noReader))
      ∧ ((∃ q, reader q = true) → (∀ i, s.snaps.get i ≠ none) → s.capture cause t cands requester
          = (pruned.told (told reader) (.snapshotSkipped cause.cls 1 .tableFull), .tableFull))
      ∧ ∀ i, (∃ q, reader q = true) → s.snaps.get i = none → (∀ j, j < i → s.snaps.get j ≠ none) →
        s.capture cause t cands requester
          = (({ pruned with
                snaps := upd s.snaps i (some ⟨s.nextCapture, t, cause, maskOf reader, Vector.ofFn (fun a => part (s.axis a))⟩)
                nextCapture := s.nextCapture + 1
                holds := Vector.ofFn (fun q => s.holds.get q + if reader q then 1 else 0) } : State).told (told reader)
              (.snapshotReady cause.cls 1 s.nextCapture), .filled s.nextCapture))

/-- SNAP: a host capture at the present time for the port and its share mask, and the response of Table 7.5 (R130). -/
def Obligations.SnapTakesAHostCapture : Prop :=
  ∀ (s : State) (p : PortId) (tag : Byte) (args : List Byte), s.asks p 0x40#8 tag args →
    (parseSnap args = none → exec (.snap p) s = .next (s.answered p tag [0x03#8]))
    ∧ ∀ share, parseSnap args = some share →
      let out := s.capture (.host p) s.time (maskOf (fun q => decide (q = p) || hasPort share q)) (some p)
      let limit : Prop := 8 ≤ s.holds.get p
      (out.2 = .exhausted → exec (.snap p) s = .next (out.1.answered p tag [0x0D#8]))
      ∧ (out.2 = .noReader → exec (.snap p) s = .next (out.1.answered p tag [0x09#8, 0#8]))
      ∧ (out.2 = .tableFull → limit → exec (.snap p) s = .next (out.1.answered p tag [0x09#8, 0#8]))
      ∧ (out.2 = .tableFull → ¬ limit → exec (.snap p) s = .next (out.1.answered p tag [0x08#8]))
      ∧ ∀ n, out.2 = .filled n →
        (limit → exec (.snap p) s = .next (out.1.answered p tag ([0x09#8, 1#8] ++ beBytes 6 n)))
        ∧ (¬ limit → exec (.snap p) s
            = .next (out.1.answered p tag ([0x00#8] ++ beBytes 6 n ++ beBytes 6 s.time.toNat)))

/-- QUIET_WINDOW_CHANGE, CAPTURE_EDGE and INPUT_FILTER_RUN: one run of the filter of the line with depth 3 (R3, R5, R120). For a
window that is all; where the run of a capture input accepts a new level, a capture request is made with that edge, the
present time, and the ports subscribed to the edge (R121). That each row is one run is the model's choice (entry 5). -/
def Obligations.GateInputsRunTheirFilters : Prop :=
  (∀ (s : State) (w : WindowId) (raw : Level), ∃ g, FilterStep 3 raw (s.qw.get w) g
    ∧ exec (.quietWindowChange w raw) s = .next { s with qw := upd s.qw w g }
    ∧ exec (.inputFilterRun (.qw w) raw) s = .next { s with qw := upd s.qw w g })
  ∧ ∀ (s : State) (c : CapId) (raw : Level), ∃ g, FilterStep 3 raw (s.cap.get c) g ∧
    let run : State := { s with cap := upd s.cap c g }
    let subscribed (q : PortId) : Bool :=
      let e := (s.port q).capSubs.get c
      decide (e = .both) || decide (e = .rising ∧ raw = .high) || decide (e = .falling ∧ raw = .low)
    ∀ i ∈ [Instr.captureEdge c raw, Instr.inputFilterRun (.cap c) raw],
      (g.accepted = (s.cap.get c).accepted → exec i s = .next run)
      ∧ (g.accepted ≠ (s.cap.get c).accepted →
          exec i s = .next (run.capture (.edge c (decide (raw = .high))) s.time (maskOf subscribed) none).1)

/-- READ_SNAPSHOT and RELEASE_SNAPSHOT find the HELD slot of the number or refuse by R132; a release takes the port out of the
reader set and frees a slot left without reader (R134); READ_OLDEST answers the smallest number the port reads (R133);
LIST_HELD lists them in increasing order (R136). -/
def Obligations.SnapshotsAreReadListedAndReleased : Prop :=
  ∀ (s : State) (p : PortId) (tag : Byte) (args : List Byte), s.NumberLaw →
    (∀ x ∈ [(Instr.readSnapshot p, 0x42#8), (Instr.releaseSnapshot p, 0x44#8)], s.asks p x.2 tag args →
      (args.length ≠ 6 → exec x.1 s = .next (s.answered p tag [0x03#8]))
      ∧ (args.length = 6 → (∀ i y, s.snaps.get i = some y → y.number ≠ beNat args) →
          exec x.1 s = .next (s.answered p tag [0x0A#8]))
      ∧ ∀ i y, args.length = 6 → s.snaps.get i = some y → y.number = beNat args → hasPort y.readers p = false →
          exec x.1 s = .next (s.answered p tag [0x0C#8]))
    ∧ (∀ i y, args.length = 6 → s.snaps.get i = some y → y.number = beNat args → hasPort y.readers p = true →
        let rest := maskOf (fun q => hasPort y.readers q && decide (q ≠ p))
        (s.asks p 0x42#8 tag args → exec (.readSnapshot p) s = .next (s.answered p tag (0x00#8 :: snapshotBytes p y)))
        ∧ (s.asks p 0x44#8 tag args → exec (.releaseSnapshot p) s = .next
            (({ s with
                snaps := upd s.snaps i (if rest = 0#3 then none else some { y with readers := rest })
                holds := upd s.holds p (s.holds.get p - 1) } : State).answered p tag
              [0x00#8, if rest = 0#3 then 1#8 else 0#8])))
    ∧ (s.asks p 0x43#8 tag args →
        (args ≠ [] → exec (.readOldest p) s = .next (s.answered p tag [0x03#8]))
        ∧ (args = [] → (∀ i y, s.snaps.get i = some y → hasPort y.readers p = false) →
            exec (.readOldest p) s = .next (s.answered p tag [0x0A#8]))
        ∧ ∀ i y, args = [] → s.snaps.get i = some y → hasPort y.readers p = true →
            (∀ j z, s.snaps.get j = some z → hasPort z.readers p = true → y.number ≤ z.number) →
            exec (.readOldest p) s = .next (s.answered p tag (0x00#8 :: snapshotBytes p y)))
    ∧ (s.asks p 0x45#8 tag args →
        (args ≠ [] → exec (.listHeld p) s = .next (s.answered p tag [0x03#8]))
        ∧ (args = [] → ∃ numbers : List Nat, numbers.Pairwise (· < ·)
            ∧ (∀ n, n ∈ numbers ↔ ∃ i y, s.snaps.get i = some y ∧ hasPort y.readers p = true ∧ y.number = n)
            ∧ exec (.listHeld p) s = .next
                (s.answered p tag (0x00#8 :: BitVec.ofNat 8 (s.holds.get p) :: numbers.flatMap (beBytes 6)))))

/-! ### Host ports -/

/-- The commands that read: NOP, READ_TIME, PORT_STATUS, READ_CLAIMS, READ_LINES and READ_AXIS answer from the state as it
stands and change nothing; REPEAT_FRAME answers the kept frame of that number, marked as a repetition, or NOT_FOUND (R24,
R42, R77, R116, R155 to R157). -/
def Obligations.ReadingCommandsAnswerAndChangeNothing : Prop :=
  ∀ (s : State) (p : PortId) (tag : Byte) (args : List Byte),
    let r := s.port p
    let plain (i : Instr) (cmd : Byte) (data : List Byte) : Prop := s.asks p cmd tag args →
      (args = [] → exec i s = .next (s.answered p tag (0x00#8 :: data)))
      ∧ (args ≠ [] → exec i s = .next (s.answered p tag [0x03#8]))
    plain (.nop p) 0x01#8 []
    ∧ plain (.readTime p) 0x06#8 (beBytes 6 s.time.toNat)
    ∧ plain (.portStatus p) 0x02#8
        ([BitVec.ofNat 8 (r.requests.length - 1), BitVec.ofNat 8 r.responses.length, BitVec.ofNat 8 r.notices.length]
          ++ beBytes 2 r.subs.toNat ++ [edgesByte (r.capSubs.get 0), edgesByte (r.capSubs.get 1), r.frameNo]
          ++ [BitVec.ofNat 8 ((if r.lastDelivered = none then 0 else 1) + (if r.dropped then 32 else 0)
                + (if r.resetSeen then 64 else 0))]
          ++ (match r.lastDelivered with
            | none => []
            | some k => [k.number]))
    ∧ plain (.readClaims p) 0x22#8 (beBytes 6 s.time.toNat ++ s.claimRecords)
    ∧ plain (.readLines p) 0x39#8 (beBytes 6 s.time.toNat ++ (List.finRange 8).flatMap s.lineRecordBytes)
    ∧ (∀ a : AxisId, s.asks p 0x13#8 tag args → args = [BitVec.ofNat 8 a.1] →
        exec (.readAxis p) s = .next (s.answered p tag (0x00#8 :: axisRecordBytes s.time a (s.axis a))))
    ∧ (s.asks p 0x04#8 tag args →
        (args.length ≠ 1 → exec (.repeatFrame p) s = .next (s.answered p tag [0x03#8]))
        ∧ ∀ n, args = [n] →
          ((∀ k, r.lastDelivered = some k → k.number ≠ n) → exec (.repeatFrame p) s = .next (s.answered p tag [0x0A#8]))
          ∧ ∀ k, r.lastDelivered = some k → k.number = n →
            exec (.repeatFrame p) s = .next (s.modPort p (fun r => { r with
              requests := r.requests.tail
              responses := r.responses
                ++ [⟨tag, 0x00#8 :: kindByte k.content.kind :: k.content.tag :: k.content.body, some k.content⟩] })))

/-- SUBSCRIBE replaces the notice mask and SUBSCRIBE_CAPTURE one capture subscription of the requesting port; each answers what
is now in force (R122, R162). -/
def Obligations.SubscriptionsAreReplaced : Prop :=
  ∀ (s : State) (p : PortId) (tag : Byte) (args : List Byte),
    (s.asks p 0x05#8 tag args →
      (parseSubscribe args = none → exec (.subscribe p) s = .next (s.answered p tag [0x03#8]))
      ∧ ∀ m, parseSubscribe args = some m → exec (.subscribe p) s = .next
          ((s.modPort p (fun r => { r with subs := m })).answered p tag (0x00#8 :: args)))
    ∧ (s.asks p 0x41#8 tag args →
      (parseCaptureSub args = none → exec (.subscribeCapture p) s = .next (s.answered p tag [0x03#8]))
      ∧ ∀ c e, parseCaptureSub args = some (c, e) →
        let now := upd (s.port p).capSubs c e
        exec (.subscribeCapture p) s = .next
          ((s.modPort p (fun r => { r with capSubs := now })).answered p tag
            [0x00#8, edgesByte (now.get 0), edgesByte (now.get 1)]))

/-- PORT_RESET, in all its blocks at once: the port's queues, kept frame, flags, subscriptions and frame number; its reader
memberships; its claims, with their lines LOW and no pulse; its entries. No other port's queue is touched, and the one
response that waits is its OK (R78, R101, R138, R158, R171). -/
def Obligations.PortResetEmptiesThePort : Prop :=
  ∀ (s : State) (p : PortId) (tag : Byte) (args : List Byte), s.asks p 0x03#8 tag args →
    (args ≠ [] → exec (.portReset p) s = .next (s.answered p tag [0x03#8]))
    ∧ (args = [] →
      let leave (x : Option Snapshot) : Option Snapshot := x.bind (fun y =>
        let rest := maskOf (fun q => hasPort y.readers q && decide (q ≠ p))
        if rest = 0#3 then none else some { y with readers := rest })
      ∃ t, exec (.portReset p) s = .next t
        ∧ t.port p =
          { requests := []
            responses := [⟨tag, [0x00#8], none⟩]
            notices := []
            frameNo := 0#8
            lastDelivered := none
            dropped := false
            resetSeen := true
            exchange := match (s.port p).exchange with
              | .active f _ => .active f true
              | x => x
            subs := 0#12
            capSubs := Vector.replicate 2 .none
            fresh := (s.port p).fresh }
        ∧ (∀ q, q ≠ p → t.port q = s.port q)
        ∧ (∀ subj, t.claim subj = if (s.claim subj).holder = some p then ⟨none, 0, none, .low⟩ else s.claim subj)
        ∧ (∀ l, t.line l = if (s.claim (.line l)).holder = some p then ⟨.low, none, (s.line l).activations⟩ else s.line l)
        ∧ t.pool = (s.withoutEntries (fun e => decide (e.owner = p))).pool
        ∧ t.booked = (s.withoutEntries (fun e => decide (e.owner = p))).booked
        ∧ (∀ i, t.snaps.get i = leave (s.snaps.get i)) ∧ t.holds = upd s.holds p 0
        ∧ t.axes = s.axes ∧ t.time = s.time ∧ t.qw = s.qw ∧ t.cap = s.cap ∧ t.nextSerial = s.nextSerial
        ∧ t.nextCapture = s.nextCapture ∧ t.pending = s.pending ∧ t.draws = s.draws)

/-- CS_N_FALL: the head response, else the head notice, else an IDLE frame is fixed with the STATUS byte and the frame number
that stand (R142, R144, R151, R170); with nothing waiting at the first fall after device reset that is the IDLE frame with
STATUS 0x48 and number 0 (R160, R174). Where a notice waits at that first fall the rules disagree, and free values decide
between the notice and an IDLE frame, and its ALERT flag (entry 17); the statement holds for every value of them. While CS_N is
low already nothing changes (entry 4). -/
def Obligations.FallSelectsTheFrame : Prop :=
  ∀ (s : State) (p : PortId),
    let r := s.port p
    let status : Byte := BitVec.ofNat 8 ((8 - (r.requests.length + r.responses.length)) + (if r.notices = [] then 0 else 16)
      + (if r.dropped then 32 else 0) + (if r.resetSeen then 64 else 0))
    let opens (f : DeviceFrame) : Prop :=
      exec (.csNFall p) s = .next (s.modPort p (fun r => { r with exchange := .active f false, fresh := false }))
    let first : DeviceFrame := ⟨0x48#8, 0#8, .idle, 0#8, []⟩
    let told (n : Notice) : DeviceFrame := ⟨status, r.frameNo, .notice, noticeKindByte n.kind, noticeBody n⟩
    (r.exchange = .idle →
      (∀ x xs, r.responses = x :: xs → opens ⟨status, r.frameNo, .response, x.tag, x.body⟩)
      ∧ (∀ e es, r.responses = [] → r.notices = e :: es →
          (r.fresh = false → opens (told e.notice))
          ∧ (r.fresh = true → opens (if Config.firstFrameIdle
              then { first with status := if Config.firstFrameAlert then status else 0x48#8 } else told e.notice)))
      ∧ (r.responses = [] → r.notices = [] → opens ⟨status, r.frameNo, .idle, 0#8, []⟩)
      ∧ (r.FirstFrame → r.fresh = true → r.notices = [] → opens first))
    ∧ (r.exchange ≠ .idle → exec (.csNFall p) s = .next s)

/-- A device frame is STATUS, LEN, FRAME_NO, KIND, TAG, the body, and the CRC-8 of all before it (Table 10.5, R174), where the
CRC is that of R175; while an exchange is open its bits go out on SDO, most significant first, then ones, and otherwise SDO
is high-impedance (R141, R160). That the frame of a voided exchange goes on being sent is the model's choice (entry 9). -/
def Obligations.FramesAreSentBitByBit : Prop :=
  (∀ f : DeviceFrame,
    let covered := [f.status, BitVec.ofNat 8 (3 + f.body.length), f.frameNo,
      (match f.kind with
        | .idle => 0#8
        | .response => 1#8
        | .notice => 2#8), f.tag] ++ f.body
    f.bytes = covered ++ [crc8 covered])
  ∧ crc8 [] = 0xFF#8
  ∧ (∀ (bs : List Byte) (b : Byte), crc8 (bs ++ [b])
      = (fun r : Byte => if r.getLsbD 7 then (r <<< 1) ^^^ 0x07#8 else r <<< 1)^[8] (crc8 bs ^^^ b))
  ∧ crc8 [0x02#8, 0x01#8, 0x01#8] = 0xEF#8
  ∧ DeviceFrame.bytes ⟨0x48#8, 0#8, .idle, 0#8, []⟩ = [0x48#8, 0x03#8, 0x00#8, 0x00#8, 0x00#8, 0xD2#8]
  ∧ ∀ (r : PortRec) (k : Nat),
    (∀ f voided, r.exchange = .active f voided → r.sdoBit k
      = some (if k < 8 * f.bytes.length then (f.bytes.getD (k / 8) 0#8).getLsbD (7 - k % 8) else true))
    ∧ ((∀ f voided, r.exchange ≠ .active f voided) → r.sdoBit k = none)

/-- CS_N_RISE: the frame sent is judged first (R145, R146, R148, R168), then the request received, against the queues that
leaves (R149, R150), and the exchange ends. After a device reset with CS_N low the rise only shows CS_N high (R160); with
CS_N high there is no rise (entry 4). -/
def Obligations.RiseDeliversThenJudges : Prop :=
  ∀ (s : State) (p : PortId) (sdi : List Bool),
    let r := s.port p
    (r.exchange = .idle → exec (.csNRise p sdi) s = .next s)
    ∧ (r.exchange = .waitHigh → exec (.csNRise p sdi) s = .next (s.modPort p (fun r => { r with exchange := .idle })))
    ∧ ∀ f voided, r.exchange = .active f voided →
      let bytes := bytesOfBits sdi
      let delivered : Prop := f.kind ≠ .idle ∧ voided = false ∧ f.body.length + 6 ≤ bytes.length
      let repeated : Option FrameContent := if f.kind = .response then (r.responses.head?).bind Response.repeats else none
      let sent : PortRec := { r with
        exchange := .idle
        responses := if f.kind = .response then r.responses.tail else r.responses
        notices := if f.kind = .notice then
            (match r.notices with
              | [] => []
              | ⟨_, none⟩ :: rest => rest
              | ⟨_, some n⟩ :: rest => rest ++ [⟨n, none⟩])
          else r.notices
        lastDelivered := some ⟨f.frameNo, repeated.getD ⟨f.kind, f.tag, f.body⟩⟩
        frameNo := r.frameNo + 1#8
        dropped := r.dropped && !f.status.getLsbD 5
        resetSeen := r.resetSeen && !f.status.getLsbD 6 }
      let unsent : PortRec := { r with
        exchange := .idle
        notices := if f.kind = .notice ∧ voided = false then
            (match r.notices with
              | ⟨m, some n⟩ :: rest => ⟨mergeNotice m n, none⟩ :: rest
              | other => other)
          else r.notices }
      let joined (u : PortRec) (e : RequestEntry) : PortRec :=
        if u.requests.length + u.responses.length < 8 then { u with requests := u.requests ++ [e] } else { u with dropped := true }
      let judged (u : PortRec) : PortRec := match judgeRequest bytes with
        | .none => u
        | .damaged detail tag => joined u (.damaged detail tag)
        | .request tag cmd args => joined u (.request tag cmd args)
      (delivered → exec (.csNRise p sdi) s = .next (s.modPort p (fun _ => judged sent)))
      ∧ (¬ delivered → exec (.csNRise p sdi) s = .next (s.modPort p (fun _ => judged unsent)))

/-- The bytes of an exchange are judged by the steps of Table 8.2, in order, and the first that applies decides (R149). -/
def Obligations.RequestsAreJudgedByTable82 : Prop :=
  judgeRequest [] = .none
  ∧ ∀ (len : Byte) (rest : List Byte),
    let n := len.toNat
    (n = 0 → judgeRequest (len :: rest) = .none)
    ∧ (n = 1 ∨ 38 < n → judgeRequest (len :: rest) = .damaged .length (rest.headD 0#8))
    ∧ (2 ≤ n → n ≤ 38 → (len :: rest).length < n + 2 → judgeRequest (len :: rest) = .damaged .truncated 0#8)
    ∧ ∀ (tag cmd : Byte) (args more : List Byte) (crc : Byte), 2 ≤ n → n ≤ 38 → rest = tag :: cmd :: args ++ crc :: more →
        args.length + 2 = n →
        (crc8 (len :: tag :: cmd :: args) ≠ crc → judgeRequest (len :: rest) = .damaged .crc tag)
        ∧ (crc8 (len :: tag :: cmd :: args) = crc → judgeRequest (len :: rest) = .request tag cmd args)

/-- Decode and encode agree: the bits of a request frame with any tag, any command byte and up to 36 argument bytes, followed
by any filler and by any bits short of a byte, are read back as that request (R141, R149, R175). -/
def Obligations.RequestFramesReadBack : Prop :=
  ∀ (tag cmd : Byte) (args filler : List Byte) (bits : List Bool), args.length ≤ 36 → bits.length < 8 →
    judgeRequest (bytesOfBits (bitsOfBytes (requestFrame tag cmd args ++ filler) ++ bits)) = .request tag cmd args

/-- FRAME_ERROR and UNKNOWN_COMMAND take what heads the queue and answer it (R153); a request command whose request does not
head the queue of its port changes nothing (entry 3). -/
def Obligations.RequestsAreTakenFromTheHead : Prop :=
  ∀ (s : State) (p : PortId) (half : ClkPhase),
    let commands : List (Instr × Byte) :=
      [(.nop p, 0x01#8), (.portStatus p, 0x02#8), (.portReset p, 0x03#8), (.repeatFrame p, 0x04#8), (.subscribe p, 0x05#8),
       (.readTime p, 0x06#8), (.setAxisConfig ⟨p, half⟩, 0x10#8), (.startAxis p, 0x11#8), (.stopAxis p, 0x12#8),
       (.readAxis p, 0x13#8), (.clearFaults p, 0x14#8), (.armReference p, 0x18#8), (.setReference p, 0x19#8),
       (.dropReference p, 0x1A#8), (.claim p, 0x20#8), (.release p, 0x21#8), (.readClaims p, 0x22#8), (.book p, 0x30#8),
       (.cancel p, 0x31#8), (.cancelAxis p, 0x32#8), (.readEntry p, 0x33#8), (.listEntries p, 0x34#8),
       (.driveLine p, 0x38#8), (.readLines p, 0x39#8), (.snap p, 0x40#8), (.subscribeCapture p, 0x41#8),
       (.readSnapshot p, 0x42#8), (.readOldest p, 0x43#8), (.releaseSnapshot p, 0x44#8), (.listHeld p, 0x45#8)]
    (∀ x ∈ commands, (∀ tag args, ¬ s.asks p x.2 tag args) → exec x.1 s = .next s)
    ∧ (∀ detail tag, (s.port p).requests.head? = some (.damaged detail tag) →
        exec (.frameError p) s = .next (s.answered p tag [0x01#8, match detail with
          | .truncated => 1#8
          | .length => 2#8
          | .crc => 3#8]))
    ∧ ((∀ detail tag, (s.port p).requests.head? ≠ some (.damaged detail tag)) → exec (.frameError p) s = .next s)
    ∧ (∀ cmd tag args, s.asks p cmd tag args →
        ((∀ x ∈ commands, x.2 ≠ cmd) → exec (.unknownCommand p) s = .next (s.answered p tag [0x02#8]))
        ∧ ((∃ x ∈ commands, x.2 = cmd) → exec (.unknownCommand p) s = .next s))
    ∧ ((∀ cmd tag args, ¬ s.asks p cmd tag args) → exec (.unknownCommand p) s = .next s)

/-! ### Bytes -/

/-- The field types of Table 10.3, most significant byte first, and the enumerated values of Table 10.4. -/
def Obligations.FieldsAreEncodedByTheirTables : Prop :=
  (∀ w n : Nat, (beBytes w n).length = w
    ∧ ∀ i, i < w → (beBytes w n)[i]? = some (BitVec.ofNat 8 (n / 256 ^ (w - 1 - i))))
  ∧ (∀ (w : Nat) (i : Int), beSigned w i = beBytes w (i % ((256 ^ w : Nat) : Int)).toNat)
  ∧ [modeByte .off, modeByte .quad, modeByte .quadIndex, modeByte .hall3, modeByte .stepDir] = [0#8, 1#8, 2#8, 3#8, 4#8]
  ∧ [windowByte .none, windowByte .qw0, windowByte .qw1] = [0#8, 1#8, 2#8]
  ∧ [policyByte .any, policyByte .fwdOnly, policyByte .revOnly] = [0#8, 1#8, 2#8]
  ∧ [polarityByte .activeHigh, polarityByte .activeLow] = [0#8, 1#8]
  ∧ [correctionByte .snap, correctionByte .check] = [0#8, 1#8]
  ∧ [runByte .disabled, runByte .counting] = [0#8, 1#8]
  ∧ [lastDirCode .none, lastDirCode .forward, lastDirCode .reverse] = [0, 1, 2]
  ∧ [motionCode .stopped, motionCode .forward, motionCode .reverse] = [0, 1, 2]
  ∧ [refStateCode .unreferenced, refStateCode .seeking, refStateCode .referenced, refStateCode .suspect, refStateCode .lost]
      = [0, 1, 2, 3, 4]
  ∧ [levelCode .low, levelCode .high] = [0, 1]
  ∧ [qualifierByte .fwd, qualifierByte .rev, qualifierByte .either] = [0#8, 1#8, 2#8]
  ∧ (∀ (l : LineId) (w : Nat) (m : PortMask), [actionByte .noticeOnly, actionByte (.pulse l w), actionByte (.setActive l),
      actionByte (.setIdle l), actionByte (.toggle l), actionByte (.capture m)] = [0#8, 1#8, 2#8, 3#8, 4#8, 5#8])
  ∧ [entryStateByte .held, entryStateByte .armed] = [0#8, 1#8]
  ∧ [edgesByte .none, edgesByte .rising, edgesByte .falling, edgesByte .both] = [0#8, 1#8, 2#8, 3#8]
  ∧ [causeClassByte .host, causeClassByte .cap0, causeClassByte .cap1, causeClassByte .compare] = [0#8, 1#8, 2#8, 3#8]
  ∧ [faultBit .quadSkip, faultBit .hallSkip, faultBit .ratchetOverflow, faultBit .hallCode, faultBit .turnRange,
      faultBit .indexDrift, faultBit .indexMissing] = [0, 1, 2, 3, 4, 5, 6]
  ∧ [noticeKindByte .compareFired, noticeKindByte .entriesCancelled, noticeKindByte .referenceChanged,
      noticeKindByte .axisFault, noticeKindByte .motionChanged, noticeKindByte .claimLost, noticeKindByte .snapshotReady,
      noticeKindByte .snapshotSkipped] = [1#8, 2#8, 3#8, 4#8, 5#8, 6#8, 7#8, 8#8]
  ∧ (∀ p : PortId, causeByte (.host p) = BitVec.ofNat 8 p.1)
  ∧ [causeByte (.edge 0 true), causeByte (.edge 0 false), causeByte (.edge 1 true), causeByte (.edge 1 false)]
      = [0x10#8, 0x11#8, 0x20#8, 0x21#8]
  ∧ (∀ (p : PortId) (h : Handle), causeByte (.compare p h) = BitVec.ofNat 8 (0x30 + p.1))
  ∧ (∀ a : AxisId, subjectByte (.axis a) = BitVec.ofNat 8 a.1)
  ∧ ∀ l : LineId, subjectByte (.line l) = BitVec.ofNat 8 (0x10 + l.1)

/-- The records of READ_AXIS, READ_ENTRY, READ_SNAPSHOT and READ_OLDEST, READ_CLAIMS, READ_LINES and DRIVE_LINE, and the
bodies of notices, field by field (Tables 10.10 to 10.15, R177, R178). -/
def Obligations.RecordsAreLaidOutByTheirTables : Prop :=
  let bit (w : Nat) (b : Bool) : Nat := if b then w else 0
  let optional {α : Type} (o : Option α) (f : α → List Byte) : List Byte := match o with
    | none => []
    | some x => f x
  let at' (p : Position) : List Byte := beSigned 3 p.turns ++ beBytes 3 p.count
  let one (n : Nat) : List Byte := [BitVec.ofNat 8 n]
  let holder (o : Option PortId) : Nat := match o with
    | none => 3
    | some p => p.1
  (∀ (now : Time) (a : AxisId) (r : AxisRec), axisRecordBytes now a r
    = beBytes 6 now.toNat ++ one a.1
      ++ one (bit 1 r.lastStep.isSome + bit 2 r.lastInterval.isSome + bit 4 r.faults.first.isSome + bit 8 r.lastDrift.isSome)
      ++ [modeByte r.cfg.mode] ++ beBytes 3 r.cfg.cpr ++ one r.cfg.divider ++ one r.cfg.depth ++ [windowByte r.cfg.window]
      ++ [policyByte r.cfg.policy] ++ [polarityByte r.cfg.polarity] ++ one r.cfg.tolerance ++ [correctionByte r.cfg.correction]
      ++ beBytes 2 r.cfg.stallMs ++ [runByte r.run] ++ at' r.pos ++ one (lastDirCode r.lastDir) ++ one (motionCode r.motion)
      ++ optional r.lastStep (fun t => beBytes 6 t.toNat) ++ optional r.lastInterval (beBytes 4) ++ beBytes 2 r.debt
      ++ one r.faults.set.toNat ++ optional r.faults.first (fun x => one (faultBit x.1) ++ beBytes 6 x.2.toNat)
      ++ one r.faults.count ++ one (refStateCode r.refState) ++ beBytes 2 r.epoch.toNat ++ beBytes 3 r.refOffset
      ++ beSigned 3 r.refTurns ++ optional r.lastDrift (beSigned 3) ++ beSigned 4 r.sinceIndex)
  ∧ (∀ (h : Handle) (e : Entry),
    let line : Option LineId := match e.action with
      | .pulse l _ => some l
      | .setActive l => some l
      | .setIdle l => some l
      | .toggle l => some l
      | _ => none
    let width : Option Nat := match e.action with
      | .pulse _ w => some w
      | _ => none
    let share : Option PortMask := match e.action with
      | .capture m => some m
      | _ => none
    entryRecordBytes h e
      = one (bit 1 line.isSome + bit 2 width.isSome + bit 4 share.isSome + bit 8 e.periodic.isSome) ++ one h.slot.1 ++ [h.gen]
        ++ one e.axis.1 ++ at' e.target ++ [qualifierByte e.qual] ++ [actionByte e.action]
        ++ optional line (fun l => one l.1) ++ optional width (beBytes 2) ++ optional share (fun m => one m.toNat)
        ++ one (bit 1 e.notify) ++ optional e.periodic (fun q => beSigned 4 q.interval ++ beBytes 2 q.repeats)
        ++ [entryStateByte e.state] ++ beBytes 2 e.fireCount ++ beBytes 4 e.serial)
  ∧ (∀ (p : PortId) (x : Snapshot),
    let handle : Option Handle := match x.cause with
      | .compare o h => if o = p then some h else none
      | _ => none
    let part (y : AxisPart) : List Byte :=
      one (lastDirCode y.lastDir + 4 * motionCode y.motion + 16 * refStateCode y.refState + bit 128 y.lastStep.isSome)
        ++ one (y.faults.toNat + bit 128 y.lastInterval.isSome) ++ at' y.pos ++ beBytes 2 y.epoch.toNat
        ++ optional y.lastStep (fun t => beBytes 6 t.toNat) ++ optional y.lastInterval (beBytes 4)
    snapshotBytes p x
      = beBytes 6 x.number ++ beBytes 6 x.time.toNat ++ [causeByte x.cause] ++ one x.readers.toNat
        ++ one (bit 1 (x.parts.get 0).isSome + bit 2 (x.parts.get 1).isSome + bit 4 (x.parts.get 2).isSome
            + bit 8 (x.parts.get 3).isSome + bit 16 handle.isSome)
        ++ optional handle (fun h => one h.slot.1 ++ [h.gen])
        ++ optional (x.parts.get 0) part ++ optional (x.parts.get 1) part ++ optional (x.parts.get 2) part
        ++ optional (x.parts.get 3) part)
  ∧ (∀ s : State,
    let claim (subj : Subject) : List Byte :=
      let c := s.claim subj
      one (holder c.holder + bit 16 (decide (c.idle = .high))) ++ beBytes 2 c.lease
        ++ (if c.holder = none ∨ c.lease = 0 then [] else optional c.expiry (fun e => beBytes 4 (e - s.time).toNat))
    s.claimRecords = claim (.axis 0) ++ claim (.axis 1) ++ claim (.axis 2) ++ claim (.axis 3) ++ claim (.line 0)
      ++ claim (.line 1) ++ claim (.line 2) ++ claim (.line 3) ++ claim (.line 4) ++ claim (.line 5) ++ claim (.line 6)
      ++ claim (.line 7))
  ∧ (∀ (s : State) (l : LineId),
    let c := s.claim (.line l)
    let r := s.line l
    s.lineRecordBytes l
      = one (holder c.holder + bit 16 (decide (c.idle = .high)) + bit 32 (decide (r.level = .high)) + bit 128 r.pulseEnd.isSome)
        ++ beBytes 4 r.activations.toNat ++ optional r.pulseEnd (fun e => beBytes 4 (e - s.time).toNat))
  ∧ (∀ a n h t ended, noticeBody (.compareFired a n h t ended)
      = one a.1 ++ one n ++ one h.slot.1 ++ [h.gen] ++ beBytes 6 t.toNat ++ one (bit 1 ended))
  ∧ (∀ a n, noticeBody (.entriesCancelled a n) = one a.1 ++ one n)
  ∧ (∀ a st ep, noticeBody (.referenceChanged a st ep) = one a.1 ++ one (refStateCode st) ++ beBytes 2 ep.toNat)
  ∧ (∀ a set, noticeBody (.axisFault a set) = one a.1 ++ one set.toNat)
  ∧ (∀ a m, noticeBody (.motionChanged a m) = one a.1 ++ one (motionCode m))
  ∧ (∀ subj, noticeBody (.claimLost subj) = [subjectByte subj])
  ∧ (∀ c n newest, noticeBody (.snapshotReady c n newest) = [causeClassByte c] ++ one n ++ beBytes 6 newest)
  ∧ (∀ c n, noticeBody (.snapshotSkipped c n .tableFull) = [causeClassByte c] ++ one n ++ [0x08#8])
  ∧ ∀ c n, noticeBody (.snapshotSkipped c n .holdLimit) = [causeClassByte c] ++ one n ++ [0x09#8]

/-- The argument bytes of the commands with fields: bytes are read as arguments exactly when they are the encoding of those
arguments, each field in its place and its width (Tables 10.2 to 10.4, R173). -/
def Obligations.ArgumentsAreReadByTheirForms : Prop :=
  let one (n : Nat) : List Byte := [BitVec.ofNat 8 n]
  let turns (i : Int) : Prop := -8388608 ≤ i ∧ i ≤ 8388607
  (∀ args a c, parseConfig args = some (a, c) ↔
    c.cpr < 16777216 ∧ c.divider < 256 ∧ c.depth < 256 ∧ c.tolerance < 256 ∧ c.stallMs < 65536
      ∧ args = one a.1 ++ [modeByte c.mode] ++ beBytes 3 c.cpr ++ one c.divider ++ one c.depth ++ [windowByte c.window]
        ++ [policyByte c.policy] ++ [polarityByte c.polarity] ++ one c.tolerance ++ [correctionByte c.correction]
        ++ beBytes 2 c.stallMs)
  ∧ (∀ args a o n, parseArm args = some (a, o, n) ↔
      o < 16777216 ∧ turns n ∧ args = one a.1 ++ beBytes 3 o ++ beSigned 3 n)
  ∧ (∀ args a q, parseSetReference args = some (a, q) ↔
      q.count < 16777216 ∧ turns q.turns ∧ args = one a.1 ++ beSigned 3 q.turns ++ beBytes 3 q.count)
  ∧ (∀ args a lease idle, parseClaim args = some (.axis a, lease, idle) ↔
      lease < 65536 ∧ idle = .low ∧ args = one a.1 ++ beBytes 2 lease)
  ∧ (∀ args l lease idle, parseClaim args = some (.line l, lease, idle) ↔
      lease < 65536 ∧ args = one (0x10 + l.1) ++ beBytes 2 lease ++ one (levelCode idle))
  ∧ (∀ args subj, parseSubject args = some subj ↔ args = [subjectByte subj])
  ∧ (∀ args b, parseBook args = some b ↔
      b.target.count < 16777216 ∧ turns b.target.turns ∧ b.width < 65536 ∧ -2147483648 ≤ b.interval
      ∧ b.interval ≤ 2147483647 ∧ b.repeats < 65536
      ∧ args = one b.axis.1 ++ beSigned 3 b.target.turns ++ beBytes 3 b.target.count ++ [qualifierByte b.qual]
        ++ one (match b.action with
          | .noticeOnly => 0
          | .pulse => 1
          | .setActive => 2
          | .setIdle => 3
          | .toggle => 4
          | .capture => 5)
        ++ one b.line.1 ++ beBytes 2 b.width ++ one b.share.toNat ++ one (if b.notify then 1 else 0)
        ++ beSigned 4 b.interval ++ beBytes 2 b.repeats)
  ∧ (∀ args l d w, parseDrive args = some (l, d, w) ↔
      w < 65536 ∧ args = one l.1 ++ one (match d with
        | .active => 0
        | .idle => 1
        | .pulse => 2) ++ beBytes 2 w)
  ∧ (∀ args m, parseSnap args = some m ↔ args = one m.toNat)
  ∧ (∀ args m, parseSubscribe args = some m ↔ args = beBytes 2 m.toNat)
  ∧ ∀ args c e, parseCaptureSub args = some (c, e) ↔ args = one c.1 ++ [edgesByte e]

/-! ### Notices -/

/-- A notice that finds none of its kind and subject joins the tail; one that finds an entry merges into it in place by Table
9.2, or, where that entry is the selected frame of an open exchange, goes into its late part (R164, R165, R167). A notice that
goes by subscriptions reaches the ports whose mask has its bit, and those in whose queue a notice of its kind and subject
waits (R161, R163). ALERT_N is low exactly while the queue is not empty (R169). -/
def Obligations.NoticesJoinOrMerge : Prop :=
  (∀ r : PortRec, r.alertN = .low ↔ r.notices ≠ [])
  ∧ (∀ (s : State) (bit : Nat) (n : Notice) (q : PortId), (s.raiseSubscribed bit n).port q
      = if (s.port q).subs.getLsbD bit = true ∨ ∃ e ∈ (s.port q).notices, e.notice.key = n.key
        then (s.port q).accept n else s.port q)
  ∧ (∀ (r : PortRec) (n : Notice),
    let selected : Prop := ∃ f, r.exchange = .active f false ∧ f.kind = .notice
    ((∀ e ∈ r.notices, e.notice.key ≠ n.key) → r.accept n = { r with notices := r.notices ++ [⟨n, none⟩] })
    ∧ ∀ before e after, r.notices = before ++ e :: after → (∀ x ∈ before, x.notice.key ≠ n.key) → e.notice.key = n.key →
      (before = [] ∧ selected → r.accept n = { r with
        notices := { e with late := some (match e.late with
          | none => n
          | some l => mergeNotice l n) } :: after })
      ∧ (¬ (before = [] ∧ selected) → r.accept n = { r with
        notices := before ++ { e with notice := mergeNotice e.notice n } :: after }))
  ∧ (∀ a m n h h' t t' d d', mergeNotice (.compareFired a m h t d) (.compareFired a n h' t' d')
      = .compareFired a (min 255 (m + n)) h' t' d')
  ∧ (∀ a m n, mergeNotice (.entriesCancelled a m) (.entriesCancelled a n) = .entriesCancelled a (min 255 (m + n)))
  ∧ (∀ a x y e f, mergeNotice (.referenceChanged a x e) (.referenceChanged a y f) = .referenceChanged a y f)
  ∧ (∀ a x y, mergeNotice (.axisFault a x) (.axisFault a y) = .axisFault a (x ||| y))
  ∧ (∀ a x y, mergeNotice (.motionChanged a x) (.motionChanged a y) = .motionChanged a y)
  ∧ (∀ x, mergeNotice (.claimLost x) (.claimLost x) = .claimLost x)
  ∧ (∀ c m n x y, mergeNotice (.snapshotReady c m x) (.snapshotReady c n y) = .snapshotReady c (min 255 (m + n)) y)
  ∧ ∀ c m n x y, mergeNotice (.snapshotSkipped c m x) (.snapshotSkipped c n y) = .snapshotSkipped c (min 255 (m + n)) y

/-! ### The laws of the device -/

/-- Every step keeps the law of R14 and the law of R30. -/
def Obligations.StepKeepsRatchetAndCountingLaws : Prop :=
  (∀ s t : State, s.RatchetLaw → step s = .next t → t.RatchetLaw)
    ∧ ∀ s t : State, s.CountingLaw → step s = .next t → t.CountingLaw

/-- Every step keeps positions and reference offsets in their range (R34, R44). -/
def Obligations.StepKeepsPositionsInRange : Prop :=
  ∀ s t : State, s.PositionLaw → step s = .next t → t.PositionLaw

/-- Every step keeps entries ARMED only while their axis is REFERENCED (R97). -/
def Obligations.StepKeepsArmedEntriesReferenced : Prop :=
  ∀ s t : State, s.ArmedLaw → step s = .next t → t.ArmedLaw

/-- Every step keeps the claim records as R65 says. -/
def Obligations.StepKeepsClaimRecordsLegal : Prop :=
  ∀ s t : State, s.ClaimLaw → step s = .next t → t.ClaimLaw

/-- Every step keeps the accounting of the pool (R81). -/
def Obligations.StepKeepsPoolAccounts : Prop :=
  ∀ s t : State, s.PoolLaw → step s = .next t → t.PoolLaw

/-- Every step keeps the law of R99 and, with it, the law of R109. -/
def Obligations.StepKeepsLinesWithTheirHolders : Prop :=
  ∀ s t : State, s.LineEntryLaw ∧ s.FreeLineLaw → step s = .next t → t.LineEntryLaw ∧ t.FreeLineLaw

/-- Every step keeps the laws of the snapshot table (R123, R124). -/
def Obligations.StepKeepsSnapshotTable : Prop :=
  (∀ s t : State, s.HoldLaw → step s = .next t → t.HoldLaw)
    ∧ ∀ s t : State, s.NumberLaw → step s = .next t → t.NumberLaw

/-- Every step keeps at most eight requests and responses waiting at each port (R150), and each port that has sent no frame since
device reset as the reset left it, but for the notices that wait (R160). -/
def Obligations.StepKeepsPortQueuesBounded : Prop :=
  (∀ s t : State, s.QueueLaw → step s = .next t → t.QueueLaw)
    ∧ ∀ s t : State, s.FirstFrameLaw → step s = .next t → t.FirstFrameLaw

/-- Every step keeps the notices of each port distinct, so at most 40 wait (R164). -/
def Obligations.StepKeepsNoticesDistinct : Prop :=
  ∀ s t : State, s.NoticeLaw → step s = .next t → t.NoticeLaw

/-- Every step keeps the booking serials of each axis distinct and below the next serial (R86). -/
def Obligations.StepKeepsSerialsDistinct : Prop :=
  ∀ s t : State, s.SerialLaw → step s = .next t → t.SerialLaw

/-- The state right after reset meets every law. -/
def Obligations.ResetMeetsEveryLaw : Prop :=
  State.reset.RatchetLaw ∧ State.reset.CountingLaw ∧ State.reset.PositionLaw ∧ State.reset.ArmedLaw ∧ State.reset.ClaimLaw
    ∧ State.reset.PoolLaw ∧ State.reset.LineEntryLaw ∧ State.reset.FreeLineLaw ∧ State.reset.HoldLaw ∧ State.reset.NumberLaw
    ∧ State.reset.QueueLaw ∧ State.reset.NoticeLaw ∧ State.reset.SerialLaw ∧ State.reset.FirstFrameLaw
end

