-- ==== Sys2Proof/Laws/State.lean ====
section
/-! SUPPORT. One lemma for each field under each update of the state, and reading a table after a replacement. -/

namespace Sys2Proof.Machine

/-! ### Tables -/

@[simp] theorem upd_get_same {α : Type} {n : Nat} (t : Vector α n) (i : Fin n) (x : α) : (upd t i x).get i = x := by
  simp [upd, Vector.get_eq_getElem]

theorem upd_get_ne {α : Type} {n : Nat} (t : Vector α n) {i j : Fin n} (h : j ≠ i) (x : α) :
    (upd t i x).get j = t.get j := by
  have h' : i.1 ≠ j.1 := fun e => h (Fin.ext e.symm)
  simp [upd, Vector.get_eq_getElem, h']

/-- Reading a table after the replacement of one place. -/
theorem upd_get {α : Type} {n : Nat} (t : Vector α n) (i j : Fin n) (x : α) :
    (upd t i x).get j = if j = i then x else t.get j := by
  by_cases h : j = i
  · subst h
    simp
  · simp [h, upd_get_ne t h]

@[simp] theorem upd_self {α : Type} {n : Nat} (t : Vector α n) (i : Fin n) : upd t i (t.get i) = t := by
  simp [upd, Vector.get_eq_getElem]

@[simp] theorem upd_upd {α : Type} {n : Nat} (t : Vector α n) (i : Fin n) (x y : α) :
    upd (upd t i x) i y = upd t i y := by
  simp [upd]

@[simp] theorem ofFn_get {α : Type} {n : Nat} (f : Fin n → α) (i : Fin n) : (Vector.ofFn f).get i = f i := by
  simp [Vector.get_eq_getElem]

@[simp] theorem replicate_get {α : Type} {n : Nat} (x : α) (i : Fin n) : (Vector.replicate n x).get i = x := by
  simp [Vector.get_eq_getElem]

@[simp] theorem map_get {α β : Type} {n : Nat} (t : Vector α n) (f : α → β) (i : Fin n) : (t.map f).get i = f (t.get i) := by
  simp [Vector.get_eq_getElem]

/-- Tables that agree at every place are equal. -/
theorem table_ext {α : Type} {n : Nat} {t u : Vector α n} (h : ∀ i, t.get i = u.get i) : t = u := by
  apply Vector.ext
  intro i hi
  simpa [Vector.get_eq_getElem] using h ⟨i, hi⟩

theorem subjectIndex_inj {x y : Subject} (h : subjectIndex x = subjectIndex y) : x = y := by
  revert h
  cases x <;> cases y <;> simp [subjectIndex, Fin.ext_iff] <;> omega

/-! ### Reading the record that was replaced -/

@[simp] theorem modAxis_axis_same (s : State) (a : AxisId) (f : AxisRec → AxisRec) :
    (s.modAxis a f).axis a = f (s.axis a) := by
  simp [State.modAxis, State.axis]

theorem modAxis_axis (s : State) (a b : AxisId) (f : AxisRec → AxisRec) :
    (s.modAxis a f).axis b = if b = a then f (s.axis a) else s.axis b := by
  simp [State.modAxis, State.axis, upd_get]

theorem modAxis_axis_ne (s : State) {a b : AxisId} (h : b ≠ a) (f : AxisRec → AxisRec) :
    (s.modAxis a f).axis b = s.axis b := by
  simp [modAxis_axis, h]

@[simp] theorem modPort_port_same (s : State) (p : PortId) (f : PortRec → PortRec) :
    (s.modPort p f).port p = f (s.port p) := by
  simp [State.modPort, State.port]

theorem modPort_port (s : State) (p q : PortId) (f : PortRec → PortRec) :
    (s.modPort p f).port q = if q = p then f (s.port p) else s.port q := by
  simp [State.modPort, State.port, upd_get]

theorem modPort_port_ne (s : State) {p q : PortId} (h : q ≠ p) (f : PortRec → PortRec) :
    (s.modPort p f).port q = s.port q := by
  simp [modPort_port, h]

@[simp] theorem modClaim_claim_same (s : State) (subj : Subject) (f : ClaimRec → ClaimRec) :
    (s.modClaim subj f).claim subj = f (s.claim subj) := by
  simp [State.modClaim, State.claim]

theorem modClaim_claim (s : State) (subj subj' : Subject) (f : ClaimRec → ClaimRec) :
    (s.modClaim subj f).claim subj' = if subj' = subj then f (s.claim subj) else s.claim subj' := by
  by_cases h : subj' = subj
  · subst h
    simp
  · have h' : subjectIndex subj' ≠ subjectIndex subj := fun e => h (subjectIndex_inj e)
    simp [State.modClaim, State.claim, upd_get_ne _ h', h]

theorem modClaim_claim_ne (s : State) {subj subj' : Subject} (h : subj' ≠ subj) (f : ClaimRec → ClaimRec) :
    (s.modClaim subj f).claim subj' = s.claim subj' := by
  simp [modClaim_claim, h]

@[simp] theorem modLine_line_same (s : State) (l : LineId) (f : LineRec → LineRec) :
    (s.modLine l f).line l = f (s.line l) := by
  simp [State.modLine, State.line]

theorem modLine_line (s : State) (l k : LineId) (f : LineRec → LineRec) :
    (s.modLine l f).line k = if k = l then f (s.line l) else s.line k := by
  simp [State.modLine, State.line, upd_get]

theorem modLine_line_ne (s : State) {l k : LineId} (h : k ≠ l) (f : LineRec → LineRec) :
    (s.modLine l f).line k = s.line k := by
  simp [modLine_line, h]

@[simp] theorem setSlot_slot_same (s : State) (i : SlotId) (x : PoolSlot) : (s.setSlot i x).slot i = x := by
  simp [State.setSlot, State.slot]

theorem setSlot_slot (s : State) (i j : SlotId) (x : PoolSlot) :
    (s.setSlot i x).slot j = if j = i then x else s.slot j := by
  simp [State.setSlot, State.slot, upd_get]

theorem setSlot_slot_ne (s : State) {i j : SlotId} (h : j ≠ i) (x : PoolSlot) : (s.setSlot i x).slot j = s.slot j := by
  simp [setSlot_slot, h]

/-- Two replacements of one port record are one. -/
@[simp] theorem modPort_modPort (s : State) (p : PortId) (f g : PortRec → PortRec) :
    (s.modPort p f).modPort p g = s.modPort p (fun r => g (f r)) := by
  simp [State.modPort, State.port]

/-- Two replacements of one axis record are one. -/
@[simp] theorem modAxis_modAxis (s : State) (a : AxisId) (f g : AxisRec → AxisRec) :
    (s.modAxis a f).modAxis a g = s.modAxis a (fun r => g (f r)) := by
  simp [State.modAxis, State.axis]

/-! ### modAxis: every other field -/

@[simp] theorem modAxis_pending (s : State) (a : AxisId) (f : AxisRec → AxisRec) : (s.modAxis a f).pending = s.pending := rfl
@[simp] theorem modAxis_time (s : State) (a : AxisId) (f : AxisRec → AxisRec) : (s.modAxis a f).time = s.time := rfl
@[simp] theorem modAxis_qw (s : State) (a : AxisId) (f : AxisRec → AxisRec) : (s.modAxis a f).qw = s.qw := rfl
@[simp] theorem modAxis_cap (s : State) (a : AxisId) (f : AxisRec → AxisRec) : (s.modAxis a f).cap = s.cap := rfl
@[simp] theorem modAxis_claims (s : State) (a : AxisId) (f : AxisRec → AxisRec) : (s.modAxis a f).claims = s.claims := rfl
@[simp] theorem modAxis_lines (s : State) (a : AxisId) (f : AxisRec → AxisRec) : (s.modAxis a f).lines = s.lines := rfl
@[simp] theorem modAxis_pool (s : State) (a : AxisId) (f : AxisRec → AxisRec) : (s.modAxis a f).pool = s.pool := rfl
@[simp] theorem modAxis_booked (s : State) (a : AxisId) (f : AxisRec → AxisRec) : (s.modAxis a f).booked = s.booked := rfl
@[simp] theorem modAxis_nextSerial (s : State) (a : AxisId) (f : AxisRec → AxisRec) : (s.modAxis a f).nextSerial = s.nextSerial := rfl
@[simp] theorem modAxis_snaps (s : State) (a : AxisId) (f : AxisRec → AxisRec) : (s.modAxis a f).snaps = s.snaps := rfl
@[simp] theorem modAxis_nextCapture (s : State) (a : AxisId) (f : AxisRec → AxisRec) : (s.modAxis a f).nextCapture = s.nextCapture := rfl
@[simp] theorem modAxis_holds (s : State) (a : AxisId) (f : AxisRec → AxisRec) : (s.modAxis a f).holds = s.holds := rfl
@[simp] theorem modAxis_ports (s : State) (a : AxisId) (f : AxisRec → AxisRec) : (s.modAxis a f).ports = s.ports := rfl
@[simp] theorem modAxis_draws (s : State) (a : AxisId) (f : AxisRec → AxisRec) : (s.modAxis a f).draws = s.draws := rfl
@[simp] theorem modAxis_port (s : State) (a : AxisId) (f : AxisRec → AxisRec) (q : PortId) : (s.modAxis a f).port q = s.port q := rfl
@[simp] theorem modAxis_claim (s : State) (a : AxisId) (f : AxisRec → AxisRec) (subj' : Subject) : (s.modAxis a f).claim subj' = s.claim subj' := rfl
@[simp] theorem modAxis_line (s : State) (a : AxisId) (f : AxisRec → AxisRec) (k : LineId) : (s.modAxis a f).line k = s.line k := rfl
@[simp] theorem modAxis_slot (s : State) (a : AxisId) (f : AxisRec → AxisRec) (j : SlotId) : (s.modAxis a f).slot j = s.slot j := rfl

/-! ### modPort: every other field -/

@[simp] theorem modPort_pending (s : State) (p : PortId) (f : PortRec → PortRec) : (s.modPort p f).pending = s.pending := rfl
@[simp] theorem modPort_time (s : State) (p : PortId) (f : PortRec → PortRec) : (s.modPort p f).time = s.time := rfl
@[simp] theorem modPort_axes (s : State) (p : PortId) (f : PortRec → PortRec) : (s.modPort p f).axes = s.axes := rfl
@[simp] theorem modPort_qw (s : State) (p : PortId) (f : PortRec → PortRec) : (s.modPort p f).qw = s.qw := rfl
@[simp] theorem modPort_cap (s : State) (p : PortId) (f : PortRec → PortRec) : (s.modPort p f).cap = s.cap := rfl
@[simp] theorem modPort_claims (s : State) (p : PortId) (f : PortRec → PortRec) : (s.modPort p f).claims = s.claims := rfl
@[simp] theorem modPort_lines (s : State) (p : PortId) (f : PortRec → PortRec) : (s.modPort p f).lines = s.lines := rfl
@[simp] theorem modPort_pool (s : State) (p : PortId) (f : PortRec → PortRec) : (s.modPort p f).pool = s.pool := rfl
@[simp] theorem modPort_booked (s : State) (p : PortId) (f : PortRec → PortRec) : (s.modPort p f).booked = s.booked := rfl
@[simp] theorem modPort_nextSerial (s : State) (p : PortId) (f : PortRec → PortRec) : (s.modPort p f).nextSerial = s.nextSerial := rfl
@[simp] theorem modPort_snaps (s : State) (p : PortId) (f : PortRec → PortRec) : (s.modPort p f).snaps = s.snaps := rfl
@[simp] theorem modPort_nextCapture (s : State) (p : PortId) (f : PortRec → PortRec) : (s.modPort p f).nextCapture = s.nextCapture := rfl
@[simp] theorem modPort_holds (s : State) (p : PortId) (f : PortRec → PortRec) : (s.modPort p f).holds = s.holds := rfl
@[simp] theorem modPort_draws (s : State) (p : PortId) (f : PortRec → PortRec) : (s.modPort p f).draws = s.draws := rfl
@[simp] theorem modPort_axis (s : State) (p : PortId) (f : PortRec → PortRec) (b : AxisId) : (s.modPort p f).axis b = s.axis b := rfl
@[simp] theorem modPort_claim (s : State) (p : PortId) (f : PortRec → PortRec) (subj' : Subject) : (s.modPort p f).claim subj' = s.claim subj' := rfl
@[simp] theorem modPort_line (s : State) (p : PortId) (f : PortRec → PortRec) (k : LineId) : (s.modPort p f).line k = s.line k := rfl
@[simp] theorem modPort_slot (s : State) (p : PortId) (f : PortRec → PortRec) (j : SlotId) : (s.modPort p f).slot j = s.slot j := rfl

/-! ### modClaim: every other field -/

@[simp] theorem modClaim_pending (s : State) (subj : Subject) (f : ClaimRec → ClaimRec) : (s.modClaim subj f).pending = s.pending := rfl
@[simp] theorem modClaim_time (s : State) (subj : Subject) (f : ClaimRec → ClaimRec) : (s.modClaim subj f).time = s.time := rfl
@[simp] theorem modClaim_axes (s : State) (subj : Subject) (f : ClaimRec → ClaimRec) : (s.modClaim subj f).axes = s.axes := rfl
@[simp] theorem modClaim_qw (s : State) (subj : Subject) (f : ClaimRec → ClaimRec) : (s.modClaim subj f).qw = s.qw := rfl
@[simp] theorem modClaim_cap (s : State) (subj : Subject) (f : ClaimRec → ClaimRec) : (s.modClaim subj f).cap = s.cap := rfl
@[simp] theorem modClaim_lines (s : State) (subj : Subject) (f : ClaimRec → ClaimRec) : (s.modClaim subj f).lines = s.lines := rfl
@[simp] theorem modClaim_pool (s : State) (subj : Subject) (f : ClaimRec → ClaimRec) : (s.modClaim subj f).pool = s.pool := rfl
@[simp] theorem modClaim_booked (s : State) (subj : Subject) (f : ClaimRec → ClaimRec) : (s.modClaim subj f).booked = s.booked := rfl
@[simp] theorem modClaim_nextSerial (s : State) (subj : Subject) (f : ClaimRec → ClaimRec) : (s.modClaim subj f).nextSerial = s.nextSerial := rfl
@[simp] theorem modClaim_snaps (s : State) (subj : Subject) (f : ClaimRec → ClaimRec) : (s.modClaim subj f).snaps = s.snaps := rfl
@[simp] theorem modClaim_nextCapture (s : State) (subj : Subject) (f : ClaimRec → ClaimRec) : (s.modClaim subj f).nextCapture = s.nextCapture := rfl
@[simp] theorem modClaim_holds (s : State) (subj : Subject) (f : ClaimRec → ClaimRec) : (s.modClaim subj f).holds = s.holds := rfl
@[simp] theorem modClaim_ports (s : State) (subj : Subject) (f : ClaimRec → ClaimRec) : (s.modClaim subj f).ports = s.ports := rfl
@[simp] theorem modClaim_draws (s : State) (subj : Subject) (f : ClaimRec → ClaimRec) : (s.modClaim subj f).draws = s.draws := rfl
@[simp] theorem modClaim_axis (s : State) (subj : Subject) (f : ClaimRec → ClaimRec) (b : AxisId) : (s.modClaim subj f).axis b = s.axis b := rfl
@[simp] theorem modClaim_port (s : State) (subj : Subject) (f : ClaimRec → ClaimRec) (q : PortId) : (s.modClaim subj f).port q = s.port q := rfl
@[simp] theorem modClaim_line (s : State) (subj : Subject) (f : ClaimRec → ClaimRec) (k : LineId) : (s.modClaim subj f).line k = s.line k := rfl
@[simp] theorem modClaim_slot (s : State) (subj : Subject) (f : ClaimRec → ClaimRec) (j : SlotId) : (s.modClaim subj f).slot j = s.slot j := rfl

/-! ### modLine: every other field -/

@[simp] theorem modLine_pending (s : State) (l : LineId) (f : LineRec → LineRec) : (s.modLine l f).pending = s.pending := rfl
@[simp] theorem modLine_time (s : State) (l : LineId) (f : LineRec → LineRec) : (s.modLine l f).time = s.time := rfl
@[simp] theorem modLine_axes (s : State) (l : LineId) (f : LineRec → LineRec) : (s.modLine l f).axes = s.axes := rfl
@[simp] theorem modLine_qw (s : State) (l : LineId) (f : LineRec → LineRec) : (s.modLine l f).qw = s.qw := rfl
@[simp] theorem modLine_cap (s : State) (l : LineId) (f : LineRec → LineRec) : (s.modLine l f).cap = s.cap := rfl
@[simp] theorem modLine_claims (s : State) (l : LineId) (f : LineRec → LineRec) : (s.modLine l f).claims = s.claims := rfl
@[simp] theorem modLine_pool (s : State) (l : LineId) (f : LineRec → LineRec) : (s.modLine l f).pool = s.pool := rfl
@[simp] theorem modLine_booked (s : State) (l : LineId) (f : LineRec → LineRec) : (s.modLine l f).booked = s.booked := rfl
@[simp] theorem modLine_nextSerial (s : State) (l : LineId) (f : LineRec → LineRec) : (s.modLine l f).nextSerial = s.nextSerial := rfl
@[simp] theorem modLine_snaps (s : State) (l : LineId) (f : LineRec → LineRec) : (s.modLine l f).snaps = s.snaps := rfl
@[simp] theorem modLine_nextCapture (s : State) (l : LineId) (f : LineRec → LineRec) : (s.modLine l f).nextCapture = s.nextCapture := rfl
@[simp] theorem modLine_holds (s : State) (l : LineId) (f : LineRec → LineRec) : (s.modLine l f).holds = s.holds := rfl
@[simp] theorem modLine_ports (s : State) (l : LineId) (f : LineRec → LineRec) : (s.modLine l f).ports = s.ports := rfl
@[simp] theorem modLine_draws (s : State) (l : LineId) (f : LineRec → LineRec) : (s.modLine l f).draws = s.draws := rfl
@[simp] theorem modLine_axis (s : State) (l : LineId) (f : LineRec → LineRec) (b : AxisId) : (s.modLine l f).axis b = s.axis b := rfl
@[simp] theorem modLine_port (s : State) (l : LineId) (f : LineRec → LineRec) (q : PortId) : (s.modLine l f).port q = s.port q := rfl
@[simp] theorem modLine_claim (s : State) (l : LineId) (f : LineRec → LineRec) (subj' : Subject) : (s.modLine l f).claim subj' = s.claim subj' := rfl
@[simp] theorem modLine_slot (s : State) (l : LineId) (f : LineRec → LineRec) (j : SlotId) : (s.modLine l f).slot j = s.slot j := rfl

/-! ### setSlot: every other field -/

@[simp] theorem setSlot_pending (s : State) (i : SlotId) (x : PoolSlot) : (s.setSlot i x).pending = s.pending := rfl
@[simp] theorem setSlot_time (s : State) (i : SlotId) (x : PoolSlot) : (s.setSlot i x).time = s.time := rfl
@[simp] theorem setSlot_axes (s : State) (i : SlotId) (x : PoolSlot) : (s.setSlot i x).axes = s.axes := rfl
@[simp] theorem setSlot_qw (s : State) (i : SlotId) (x : PoolSlot) : (s.setSlot i x).qw = s.qw := rfl
@[simp] theorem setSlot_cap (s : State) (i : SlotId) (x : PoolSlot) : (s.setSlot i x).cap = s.cap := rfl
@[simp] theorem setSlot_claims (s : State) (i : SlotId) (x : PoolSlot) : (s.setSlot i x).claims = s.claims := rfl
@[simp] theorem setSlot_lines (s : State) (i : SlotId) (x : PoolSlot) : (s.setSlot i x).lines = s.lines := rfl
@[simp] theorem setSlot_booked (s : State) (i : SlotId) (x : PoolSlot) : (s.setSlot i x).booked = s.booked := rfl
@[simp] theorem setSlot_nextSerial (s : State) (i : SlotId) (x : PoolSlot) : (s.setSlot i x).nextSerial = s.nextSerial := rfl
@[simp] theorem setSlot_snaps (s : State) (i : SlotId) (x : PoolSlot) : (s.setSlot i x).snaps = s.snaps := rfl
@[simp] theorem setSlot_nextCapture (s : State) (i : SlotId) (x : PoolSlot) : (s.setSlot i x).nextCapture = s.nextCapture := rfl
@[simp] theorem setSlot_holds (s : State) (i : SlotId) (x : PoolSlot) : (s.setSlot i x).holds = s.holds := rfl
@[simp] theorem setSlot_ports (s : State) (i : SlotId) (x : PoolSlot) : (s.setSlot i x).ports = s.ports := rfl
@[simp] theorem setSlot_draws (s : State) (i : SlotId) (x : PoolSlot) : (s.setSlot i x).draws = s.draws := rfl
@[simp] theorem setSlot_axis (s : State) (i : SlotId) (x : PoolSlot) (b : AxisId) : (s.setSlot i x).axis b = s.axis b := rfl
@[simp] theorem setSlot_port (s : State) (i : SlotId) (x : PoolSlot) (q : PortId) : (s.setSlot i x).port q = s.port q := rfl
@[simp] theorem setSlot_claim (s : State) (i : SlotId) (x : PoolSlot) (subj' : Subject) : (s.setSlot i x).claim subj' = s.claim subj' := rfl
@[simp] theorem setSlot_line (s : State) (i : SlotId) (x : PoolSlot) (k : LineId) : (s.setSlot i x).line k = s.line k := rfl

/-! ### Sample dividers -/

@[simp] theorem TickDividers.replace_first (x : TickDividers) (half : ClkPhase) (k : Nat) :
    (x.replace half k).first = x.first := by cases half <;> rfl

@[simp] theorem TickDividers.replace_second (x : TickDividers) (half : ClkPhase) (k : Nat) :
    (x.replace half k).second = if half = .first then k else x.second := by cases half <;> rfl

@[simp] theorem AxisRec.newTick_dividerIn (r : AxisRec) (ph : ClkPhase) : r.newTick.dividerIn ph = r.cfg.divider := by
  cases ph <;> rfl

end Sys2Proof.Machine
end

