-- ==== Sys2Proof/Laws/Notices.lean ====
section
/-! SUPPORT. What raising a notice can do: it reaches the queues of its recipients and changes nothing else. -/

namespace Sys2Proof.Machine

/-! ### Ports as functions -/

theorem ports_get (s : State) (p : PortId) : s.ports.get p = s.port p := rfl

/-- A state is determined by the fields other than the ports and by its port records. -/
theorem ports_ext {s : State} {x y : Vector PortRec 3} (h : ∀ q, x.get q = y.get q) :
    ({ s with ports := x } : State) = { s with ports := y } := by
  rw [table_ext h]

@[simp] theorem told_port (s : State) (who : PortId → Bool) (n : Notice) (q : PortId) :
    (s.told who n).port q = if who q then (s.port q).accept n else s.port q := by
  simp [State.told, State.port]

/-- Raising for one port is telling that port. -/
theorem raise_eq_told (s : State) (p : PortId) (n : Notice) : s.raise p n = s.told (fun q => decide (q = p)) n := by
  unfold State.raise State.modPort State.told
  apply ports_ext
  intro q
  by_cases h : q = p
  · subst h
    simp
  · simp [upd_get_ne _ h, h, ports_get]

theorem told_told (s : State) (f g : PortId → Bool) (n : Notice) (h : ∀ q, ¬ (f q = true ∧ g q = true)) :
    (s.told f n).told g n = s.told (fun q => f q || g q) n := by
  unfold State.told
  apply ports_ext
  intro q
  have := h q
  cases hf : f q <;> cases hg : g q <;> simp_all [State.port]

theorem told_none (s : State) (n : Notice) : s.told (fun _ => false) n = s := by
  have : (Vector.ofFn (fun q => if false = true then (s.port q).accept n else s.port q)) = s.ports := by
    apply table_ext
    intro i
    simp [ports_get]
  unfold State.told
  rw [this]

/-- Raising for several ports is telling those ports: their queues are different state (R161). -/
theorem raiseTo_eq_told (s : State) (who : PortId → Bool) (n : Notice) : s.raiseTo who n = s.told who n := by
  have key : ∀ (l : List PortId) (t : State), l.Nodup →
      l.foldl (fun t p => t.raise p n) t = t.told (fun q => decide (q ∈ l)) n := by
    intro l
    induction l with
    | nil => intro t _; simp [told_none]
    | cons x xs ih =>
      intro t hn
      rw [List.nodup_cons] at hn
      rw [List.foldl_cons, ih _ hn.2, raise_eq_told, told_told]
      · congr 1
        funext q
        simp
      · intro q hq
        simp only [decide_eq_true_eq] at hq
        exact hn.1 (hq.1 ▸ hq.2)
  unfold State.raiseTo
  rw [key _ _ ((List.nodup_finRange 3).filter _)]
  congr 1
  funext q
  simp

/-- A subscribed notice reaches the ports whose mask has the bit (R161). -/
theorem raiseSubscribed_eq (s : State) (bit : Nat) (n : Notice) : s.raiseSubscribed bit n = s.toldSubscribers bit n :=
  raiseTo_eq_told s _ n

/-! ### Accepting a notice touches the notice queue alone -/

@[simp] theorem accept_requests (r : PortRec) (n : Notice) : (r.accept n).requests = r.requests := rfl
@[simp] theorem accept_responses (r : PortRec) (n : Notice) : (r.accept n).responses = r.responses := rfl
@[simp] theorem accept_frameNo (r : PortRec) (n : Notice) : (r.accept n).frameNo = r.frameNo := rfl
@[simp] theorem accept_lastDelivered (r : PortRec) (n : Notice) : (r.accept n).lastDelivered = r.lastDelivered := rfl
@[simp] theorem accept_dropped (r : PortRec) (n : Notice) : (r.accept n).dropped = r.dropped := rfl
@[simp] theorem accept_resetSeen (r : PortRec) (n : Notice) : (r.accept n).resetSeen = r.resetSeen := rfl
@[simp] theorem accept_exchange (r : PortRec) (n : Notice) : (r.accept n).exchange = r.exchange := rfl
@[simp] theorem accept_subs (r : PortRec) (n : Notice) : (r.accept n).subs = r.subs := rfl
@[simp] theorem accept_capSubs (r : PortRec) (n : Notice) : (r.accept n).capSubs = r.capSubs := rfl
@[simp] theorem accept_fresh (r : PortRec) (n : Notice) : (r.accept n).fresh = r.fresh := rfl

/-- A notice and a request taken from the queue, with its response, touch different fields of a port record. -/
theorem accept_answered (r : PortRec) (n : Notice) (tag : Byte) (body : List Byte) :
    (r.answered tag body).accept n = (r.accept n).answered tag body := rfl

/-- What a notice raised for some ports can touch: the port records. -/
theorem told_touches (s : State) (who : PortId → Bool) (n : Notice) : ∃ x, s.told who n = { s with ports := x } := ⟨_, rfl⟩

/-- What a subscribed notice can touch: the port records. -/
theorem raiseSubscribed_touches (s : State) (bit : Nat) (n : Notice) :
    ∃ x, s.raiseSubscribed bit n = { s with ports := x } := by
  rw [raiseSubscribed_eq]
  exact told_touches s _ n

/-- The merged notice keeps the kind and subject of the queued one (R164, Table 9.2). -/
theorem mergeNotice_key (q n : Notice) : (mergeNotice q n).key = q.key := by
  cases q <;> cases n <;> rfl

/-- An arrival changes the keys of a queue only by adding its own at the tail when it is not there yet. -/
theorem enqueue_keys (sel : Bool) (n : Notice) (l : List NoticeEntry) :
    (enqueue sel n l).map (fun e => e.notice.key)
      = if n.key ∈ l.map (fun e => e.notice.key) then l.map (fun e => e.notice.key)
        else l.map (fun e => e.notice.key) ++ [n.key] := by
  induction l generalizing sel with
  | nil => simp [enqueue]
  | cons e rest ih =>
    unfold enqueue
    by_cases h : e.notice.key = n.key
    · cases sel <;> simp [h, NoticeEntry.merge, mergeNotice_key]
    · have h' : ¬ n.key = e.notice.key := fun x => h x.symm
      simp only [h, if_false, List.map_cons, ih, List.mem_cons, h', false_or]
      split <;> simp_all

end Sys2Proof.Machine
end

