-- ==== Sys2Proof/Laws/Numbers.lean ====
section
/-! SUPPORT. Positions as absolute numbers (section 0.5.1), and port masks as sets (Table 10.3). -/

namespace Sys2Proof.Machine

/-! ### Positions -/

/-- The range of a position, in numbers. -/
theorem position_wellFormed_iff (cpr : Nat) (p : Position) :
    p.wellFormed cpr = true ↔ p.count < cpr ∧ -8388608 ≤ p.turns ∧ p.turns ≤ 8388607 := by
  simp only [Position.wellFormed, Bool.and_eq_true, decide_eq_true_eq, and_assoc]
  rfl

/-- The range of absolute positions, in turns (R57, R107). -/
theorem absInRange_iff (cpr : Nat) (x : Int) (hc : 0 < cpr) :
    absInRange cpr x = true ↔ -8388608 ≤ x / cpr ∧ x / cpr ≤ 8388607 := by
  have hc' : (0 : Int) < cpr := by omega
  have e : (8388607 + 1 : Int) * cpr = 8388607 * cpr + cpr := by ring
  rw [Int.le_ediv_iff_mul_le hc', Int.le_iff_lt_add_one (b := 8388607), Int.ediv_lt_iff_lt_mul hc']
  simp only [absInRange, Bool.and_eq_true, decide_eq_true_eq]
  unfold Config.turnsMin Config.turnsMax
  omega

/-- The one position in range with a given absolute position is its floor division. -/
theorem position_of_absPos (cpr : Nat) (x : Int) (q : Position) :
    (q.wellFormed cpr = true ∧ q.turns * cpr + q.count = x) ↔ (absInRange cpr x = true ∧ 0 < cpr ∧ q = ofAbs cpr x) := by
  constructor
  · rintro ⟨h, rfl⟩
    rw [position_wellFormed_iff] at h
    have hc : 0 < cpr := by omega
    have hd : (q.turns * cpr + q.count) / (cpr : Int) = q.turns := by
      rw [Int.add_comm, Int.add_mul_ediv_right _ _ (by omega), Int.ediv_eq_zero_of_lt (by omega) (by omega), Int.zero_add]
    have hm : (q.turns * cpr + q.count) % (cpr : Int) = q.count := by
      rw [Int.add_comm, Int.add_mul_emod_self_right, Int.emod_eq_of_lt (by omega) (by omega)]
    refine ⟨(absInRange_iff _ _ hc).mpr (by rw [hd]; exact h.2), hc, ?_⟩
    unfold ofAbs
    rw [hd, hm, Int.toNat_natCast]
  · rintro ⟨h, hc, rfl⟩
    have h := (absInRange_iff _ _ hc).mp h
    have h1 := Int.emod_nonneg x (b := (cpr : Int)) (by omega)
    have h2 := Int.emod_lt_of_pos x (b := (cpr : Int)) (by omega)
    have h3 := Int.mul_ediv_add_emod x cpr
    rw [position_wellFormed_iff]
    refine ⟨⟨by simp only [ofAbs]; omega, h⟩, ?_⟩
    simp only [ofAbs]
    rw [Int.toNat_of_nonneg h1, Int.mul_comm]
    exact h3

/-! ### Port masks -/

@[simp] theorem hasPort_maskOf (f : PortId → Bool) (p : PortId) : hasPort (maskOf f) p = f p := by
  have h : p = 0 ∨ p = 1 ∨ p = 2 := by
    revert p
    decide
  unfold hasPort maskOf
  rcases h with rfl | rfl | rfl <;> cases f 0 <;> cases f 1 <;> cases f 2 <;> rfl

theorem maskOf_eq_zero (f : PortId → Bool) : maskOf f = 0#3 ↔ ∀ q, f q = false := by
  constructor
  · intro h q
    rw [← hasPort_maskOf f q, h]
    simp [hasPort]
  · intro h
    unfold maskOf
    simp [h]

/-- The requester or owner with a share mask is one set of ports: a port named twice is one member (section 7.3). -/
theorem onePort_or (p : PortId) (m : PortMask) : onePort p ||| m = maskOf (fun q => decide (q = p) || hasPort m q) := by
  revert p m
  decide +kernel

end Sys2Proof.Machine
end

