-- ==== Sys2Proof/Laws/Shapes.lean ====
section
/-! SUPPORT. For each shared operation, once, everything it can touch: the fields of the state named in its lemma, and no other. -/

namespace Sys2Proof.Machine

/-! ### Axes and references -/

theorem modAxis_touches (s : State) (a : AxisId) (f : AxisRec → AxisRec) : ∃ x, s.modAxis a f = { s with axes := x } :=
  ⟨_, rfl⟩

theorem handOver_touches (s : State) (a : AxisId) (old new : RefState) :
    ∃ x, s.handOver a old new = { s with pool := x } := by
  unfold State.handOver
  split
  · exact ⟨_, rfl⟩
  · split
    · exact ⟨_, rfl⟩
    · exact ⟨_, rfl⟩

theorem changeReference_touches (s : State) (a : AxisId) (st : RefState) (ep : BitVec 16) :
    ∃ x y z, s.changeReference a st ep = { s with axes := x, pool := y, ports := z } := by
  unfold State.changeReference State.putReference
  obtain ⟨y, hy⟩ := handOver_touches (s.modAxis a (fun r => { r with refState := st, epoch := ep })) a
    (s.axis a).refState st
  rw [hy]
  split
  · exact ⟨_, _, _, rfl⟩
  · obtain ⟨z, hz⟩ := raiseSubscribed_touches
      ({ s.modAxis a (fun r => { r with refState := st, epoch := ep }) with pool := y }) (subReference a)
      (.referenceChanged a st ep)
    rw [hz]
    exact ⟨_, _, _, rfl⟩

theorem fault_touches (s : State) (a : AxisId) (k : FaultKind) (t : Time) (after : RefState) :
    ∃ x y z, s.fault a k t after = { s with axes := x, pool := y, ports := z } := by
  unfold State.fault State.raiseAxisFault State.enterFault
  obtain ⟨x, y, z, h⟩ := changeReference_touches (s.modAxis a (fun r => { r with faults := r.faults.enter k t })) a after
    (s.axis a).epoch
  rw [h]
  obtain ⟨w, hw⟩ := raiseSubscribed_touches
    ({ s.modAxis a (fun r => { r with faults := r.faults.enter k t }) with axes := x, pool := y, ports := z })
    (subFault a) (.axisFault a (({ s.modAxis a (fun r => { r with faults := r.faults.enter k t }) with
      axes := x, pool := y, ports := z } : State).axis a).faults.set)
  rw [hw]
  exact ⟨_, _, _, rfl⟩

theorem sensorFault_touches (s : State) (a : AxisId) (t : Time) (k : FaultKind) :
    ∃ x y z, s.sensorFault a t k = { s with axes := x, pool := y, ports := z } := fault_touches _ _ _ _ _

theorem establish_touches (s : State) (a : AxisId) (p : Position) :
    ∃ x y z, s.establish a p = { s with axes := x, pool := y, ports := z } := by
  unfold State.establish
  obtain ⟨x, y, z, h⟩ := changeReference_touches
    (s.modAxis a (fun r => { r with pos := p, sinceIndex := 0, lastDrift := none })) a .referenced
    ((s.axis a).epoch + 1#16)
  exact ⟨x, y, z, h⟩

theorem checkIndex_touches (s : State) (a : AxisId) (t : Time) (beyond : RefState) :
    ∃ x y z, s.checkIndex a t beyond = { s with axes := x, pool := y, ports := z } := by
  unfold State.checkIndex
  dsimp only
  split
  · obtain ⟨x, y, z, h⟩ := changeReference_touches (s.modAxis a _) a .referenced (s.axis a).epoch
    exact ⟨x, y, z, h⟩
  · obtain ⟨x, y, z, h⟩ := fault_touches (s.modAxis a _) a .indexDrift t beyond
    exact ⟨x, y, z, h⟩

theorem indexEvent_touches (s : State) (a : AxisId) (t : Time) :
    ∃ x y z, s.indexEvent a t = { s with axes := x, pool := y, ports := z } := by
  have h : ∃ x y z, s.judgeIndex a t = { s with axes := x, pool := y, ports := z } := by
    unfold State.judgeIndex
    split
    · exact establish_touches _ _ _
    · exact checkIndex_touches _ _ _ _
    · exact checkIndex_touches _ _ _ _
    · exact ⟨_, _, _, rfl⟩
    · exact ⟨_, _, _, rfl⟩
  obtain ⟨x, y, z, h⟩ := h
  unfold State.indexEvent State.zeroSince
  rw [h]
  exact ⟨_, _, _, rfl⟩

theorem missedIndex_touches (s : State) (a : AxisId) (t : Time) :
    ∃ x y z, s.missedIndex a t = { s with axes := x, pool := y, ports := z } := by
  unfold State.missedIndex
  split
  · obtain ⟨x, y, z, h⟩ := fault_touches (s.modAxis a _) a .indexMissing t
      (if (s.axis a).refState = .referenced then .suspect else .lost)
    exact ⟨x, y, z, h⟩
  · exact ⟨_, _, _, rfl⟩

/-! ### The compare pool -/

theorem giveSerials_touches (s : State) (n : Nat) (l : List SlotId) : ∃ x, s.giveSerials n l = { s with pool := x } := by
  induction l generalizing s n with
  | nil => exact ⟨_, rfl⟩
  | cons i rest ih =>
    unfold State.giveSerials
    split
    · obtain ⟨x, h⟩ := ih (s.putEntry i _) (n + 1)
      exact ⟨x, h⟩
    · exact ih _ _

theorem readySerial_touches (s : State) (a : AxisId) :
    ∃ x y, s.readySerial a = { s with pool := x, nextSerial := y } := by
  unfold State.readySerial State.renumber
  split
  · obtain ⟨x, h⟩ := giveSerials_touches s 0 ((s.axisList a).map Prod.fst)
    rw [h]
    exact ⟨_, _, rfl⟩
  · exact ⟨_, _, rfl⟩

theorem takeSerial_touches (s : State) (a : AxisId) :
    ∃ x y, (s.takeSerial a).1 = { s with pool := x, nextSerial := y } := by
  obtain ⟨x, y, h⟩ := readySerial_touches s a
  unfold State.takeSerial
  rw [h]
  exact ⟨_, _, rfl⟩

theorem freeEntry_touches (s : State) (i : SlotId) : ∃ x y, s.freeEntry i = { s with pool := x, booked := y } := by
  unfold State.freeEntry
  split
  · exact ⟨_, _, rfl⟩
  · exact ⟨_, _, rfl⟩

theorem freeEntries_touches (s : State) (l : List SlotId) :
    ∃ x y, s.freeEntries l = { s with pool := x, booked := y } := by
  unfold State.freeEntries
  induction l generalizing s with
  | nil => exact ⟨_, _, rfl⟩
  | cons i rest ih =>
    obtain ⟨x, y, h⟩ := freeEntry_touches s i
    obtain ⟨x', y', h'⟩ := ih (s.freeEntry i)
    rw [List.foldl_cons, h', h]
    exact ⟨_, _, rfl⟩

/-! ### Lines and claims -/

theorem lineAction_touches (s : State) (l : LineId) (now : Time) (act : LineAction) :
    ∃ x, s.lineAction l now act = { s with lines := x } := ⟨_, rfl⟩

theorem freeSubject_touches (s : State) (subj : Subject) :
    ∃ c l x y, s.freeSubject subj = { s with claims := c, lines := l, pool := x, booked := y } := by
  unfold State.freeSubject
  split
  · exact ⟨_, _, _, _, rfl⟩
  · obtain ⟨x, y, h⟩ := freeEntries_touches
      ((s.modClaim _ (fun _ => ClaimRec.free)).modLine _ (fun r => { r with level := .low, pulseEnd := none })) (s.cancelledBy _)
    rw [h]
    exact ⟨_, _, _, _, rfl⟩

theorem grant_touches (s : State) (p : PortId) (subj : Subject) (lease : Nat) (idle : Level) :
    ∃ c l, s.grant p subj lease idle = { s with claims := c, lines := l } := by
  unfold State.grant
  split <;> exact ⟨_, _, rfl⟩

theorem renew_touches (s : State) (p : PortId) (subj : Subject) (lease : Nat) (idle : Level) :
    ∃ c l, s.renew p subj lease idle = { s with claims := c, lines := l } := by
  unfold State.renew
  split <;> exact ⟨_, _, rfl⟩

theorem renewByUse_touches (s : State) (subj : Subject) : ∃ c, s.renewByUse subj = { s with claims := c } := ⟨_, rfl⟩

/-! ### Captures -/

theorem tell_touches (s : State) (m : PortMask) (q : Option PortId) (n : Notice) :
    ∃ x, s.tell m q n = { s with ports := x } := by
  unfold State.tell
  rw [raiseTo_eq_told]
  exact ⟨_, rfl⟩

theorem captureInto_touches (s : State) (cause : Cause) (t : Time) (readers : PortMask) (q : Option PortId) :
    ∃ x n h w, (s.captureInto cause t readers q).1 = { s with snaps := x, nextCapture := n, holds := h, ports := w } := by
  unfold State.captureInto
  split
  · exact ⟨_, _, _, _, rfl⟩
  · split
    · obtain ⟨w, h⟩ := tell_touches s readers q (.snapshotSkipped cause.cls 1 .tableFull)
      exact ⟨_, _, _, w, h⟩
    · obtain ⟨w, h⟩ := tell_touches (s.fillSnap _ cause t readers) readers q (.snapshotReady cause.cls 1 s.nextCapture)
      exact ⟨_, _, _, w, h⟩

theorem capture_touches (s : State) (cause : Cause) (t : Time) (cands : PortMask) (q : Option PortId) :
    ∃ x n h w, (s.capture cause t cands q).1 = { s with snaps := x, nextCapture := n, holds := h, ports := w } := by
  unfold State.capture
  split
  · exact ⟨_, _, _, _, rfl⟩
  · obtain ⟨w, hw⟩ := tell_touches s (s.pruned cands) q (.snapshotSkipped cause.cls 1 .holdLimit)
    obtain ⟨x, n, h, w', hc⟩ := captureInto_touches (s.tell (s.pruned cands) q (.snapshotSkipped cause.cls 1 .holdLimit))
      cause t (s.unpruned cands) q
    rw [hc, hw]
    exact ⟨_, _, _, _, rfl⟩

theorem edgeCapture_touches (s : State) (c : CapId) (rising : Bool) :
    ∃ x n h w, s.edgeCapture c rising = { s with snaps := x, nextCapture := n, holds := h, ports := w } :=
  capture_touches _ _ _ _ _

/-! ### Firing -/

theorem perform_touches (s : State) (e : Entry) (h : Handle) (t : Time) :
    ∃ l x n k w, s.perform e h t = { s with lines := l, snaps := x, nextCapture := n, holds := k, ports := w } := by
  unfold State.perform
  split
  · exact ⟨_, _, _, _, _, rfl⟩
  · exact ⟨_, _, _, _, _, rfl⟩
  · exact ⟨_, _, _, _, _, rfl⟩
  · exact ⟨_, _, _, _, _, rfl⟩
  · exact ⟨_, _, _, _, _, rfl⟩
  · obtain ⟨x, n, k, w, h⟩ := capture_touches s (.compare e.owner h) t (onePort e.owner ||| _) none
    exact ⟨_, x, n, k, w, h⟩

theorem settle_touches (s : State) (i : SlotId) (a : AxisId) (e : Option Entry) :
    ∃ x y z, s.settle i a e = { s with pool := x, booked := y, nextSerial := z } := by
  unfold State.settle
  split
  · obtain ⟨x, y, h⟩ := freeEntry_touches s i
    exact ⟨x, y, _, h⟩
  · obtain ⟨x, y, h⟩ := takeSerial_touches s a
    rw [h]
    exact ⟨_, _, _, rfl⟩

theorem fire_touches (s : State) (a : AxisId) (t : Time) (i : SlotId) :
    ∃ l x n k w y b z, s.fire a t i = { s with
      lines := l, snaps := x, nextCapture := n, holds := k, ports := w, pool := y, booked := b, nextSerial := z } := by
  unfold State.fire
  split
  · exact ⟨_, _, _, _, _, _, _, _, rfl⟩
  · rename_i e _
    dsimp only
    obtain ⟨l, x, n, k, w, hp⟩ := perform_touches s e (s.handleOf i) t
    have hn : ∀ u : State, ∀ b, ∃ w', u.notifyFired e (s.handleOf i) t b = { u with ports := w' } := by
      intro u b
      unfold State.notifyFired
      split
      · rw [raise_eq_told]
        exact ⟨_, rfl⟩
      · exact ⟨_, rfl⟩
    obtain ⟨w', hw⟩ := hn ((s.perform e (s.handleOf i) t).putEntry i e.counted)
      (e.counted.settled (s.axis a).cfg.cpr).isNone
    obtain ⟨y, b, z, hs⟩ := settle_touches
      (((s.perform e (s.handleOf i) t).putEntry i e.counted).notifyFired e (s.handleOf i) t
        (e.counted.settled (s.axis a).cfg.cpr).isNone) i a (e.counted.settled (s.axis a).cfg.cpr)
    rw [hs, hw, hp]
    exact ⟨_, _, _, _, _, _, _, _, rfl⟩

theorem offer_touches (s : State) (a : AxisId) (d : Dir) (t : Time) :
    ∃ l x n k w y b z, s.offer a d t = { s with
      lines := l, snaps := x, nextCapture := n, holds := k, ports := w, pool := y, booked := b, nextSerial := z } := by
  unfold State.offer
  generalize s.matching a d = slots
  induction slots generalizing s with
  | nil => exact ⟨_, _, _, _, _, _, _, _, rfl⟩
  | cons i rest ih =>
    obtain ⟨l, x, n, k, w, y, b, z, h⟩ := fire_touches s a t i
    obtain ⟨l', x', n', k', w', y', b', z', h'⟩ := ih (s.fire a t i)
    rw [List.foldl_cons, h', h]
    exact ⟨_, _, _, _, _, _, _, _, rfl⟩

/-! ### Samples -/

/-- The fields a decoded sample can touch. -/
def State.SampleTouches (s t : State) : Prop :=
  ∃ ax l x n k w y b z, t = { s with
    axes := ax, lines := l, snaps := x, nextCapture := n, holds := k, ports := w, pool := y, booked := b, nextSerial := z }

theorem State.SampleTouches.refl (s : State) : s.SampleTouches s := ⟨_, _, _, _, _, _, _, _, _, rfl⟩

theorem State.SampleTouches.trans {s t u : State} (h : s.SampleTouches t) (g : t.SampleTouches u) : s.SampleTouches u := by
  obtain ⟨_, _, _, _, _, _, _, _, _, rfl⟩ := h
  obtain ⟨_, _, _, _, _, _, _, _, _, rfl⟩ := g
  exact ⟨_, _, _, _, _, _, _, _, _, rfl⟩

theorem modAxis_sampleTouches (s : State) (a : AxisId) (f : AxisRec → AxisRec) : s.SampleTouches (s.modAxis a f) :=
  ⟨_, _, _, _, _, _, _, _, _, rfl⟩

theorem SampleTouches.ofReference {s t : State} (h : ∃ x y z, t = { s with axes := x, pool := y, ports := z }) :
    s.SampleTouches t := by
  obtain ⟨_, _, _, rfl⟩ := h
  exact ⟨_, _, _, _, _, _, _, _, _, rfl⟩

theorem rawStep_sampleTouches (s : State) (a : AxisId) (d : Dir) (t : Time) : s.SampleTouches (s.rawStep a d t) := by
  unfold State.rawStep
  split
  · exact modAxis_sampleTouches _ _ _
  · obtain ⟨x, h⟩ := raiseSubscribed_touches (s.modAxis a (fun r => r.rawStep d t)) (subMotion a)
      (.motionChanged a (motionOf d))
    rw [h]
    exact ⟨_, _, _, _, _, _, _, _, _, rfl⟩

theorem fire_sampleTouches (s : State) (a : AxisId) (t : Time) (i : SlotId) : s.SampleTouches (s.fire a t i) := by
  obtain ⟨_, _, _, _, _, _, _, _, h⟩ := fire_touches s a t i
  exact ⟨_, _, _, _, _, _, _, _, _, h⟩

theorem firings_sampleTouches (s : State) (a : AxisId) (t : Time) (slots : List SlotId) :
    s.SampleTouches (slots.foldl (fun u i => u.fire a t i) s) := by
  induction slots generalizing s with
  | nil => exact .refl s
  | cons i rest ih => exact (fire_sampleTouches s a t i).trans (ih _)

theorem checkStep_sampleTouches (s : State) (a : AxisId) (t : Time) (d : Dir) : s.SampleTouches (s.checkStep a t d) :=
  State.SampleTouches.trans (modAxis_sampleTouches _ _ _) (SampleTouches.ofReference (missedIndex_touches _ _ _))

theorem land_sampleTouches (s : State) (a : AxisId) (t : Time) (d : Dir) : s.SampleTouches (s.land a t d) := by
  have h : ∀ n, s.SampleTouches ((s.rawStep a d t).setDebt a n) := fun n =>
    (rawStep_sampleTouches s a d t).trans (modAxis_sampleTouches _ _ _)
  unfold State.land
  dsimp only
  split
  · exact (h _).trans (modAxis_sampleTouches _ _ _)
  · exact h _

theorem oneStep_sampleTouches (s : State) (a : AxisId) (t : Time) (d : Dir) : s.SampleTouches (s.oneStep a t d) := by
  unfold State.oneStep
  split
  · exact ((land_sampleTouches s a t d).trans (firings_sampleTouches _ a t _)).trans (checkStep_sampleTouches _ a t d)
  · exact land_sampleTouches s a t d

theorem allSteps_sampleTouches (s : State) (a : AxisId) (t : Time) (l : List Dir) : s.SampleTouches (s.allSteps a t l).1 := by
  induction l generalizing s with
  | nil => exact .refl s
  | cons d rest ih => exact (oneStep_sampleTouches s a t d).trans (ih _)

theorem faultStage_sampleTouches (s : State) (a : AxisId) (t : Time) (l : List FaultKind) :
    s.SampleTouches (s.faultStage a t l) := by
  unfold State.faultStage
  induction l generalizing s with
  | nil => exact .refl s
  | cons k rest ih => exact (SampleTouches.ofReference (sensorFault_touches s a t k)).trans (ih _)

theorem runStages_sampleTouches (s : State) (a : AxisId) (t : Time) (steps : List Dir) (index : Bool)
    (faults : List FaultKind) : s.SampleTouches (s.runStages a t steps index faults) := by
  unfold State.runStages State.indexStage
  dsimp only
  refine State.SampleTouches.trans (allSteps_sampleTouches s a t steps) ?_
  split
  · exact (SampleTouches.ofReference (indexEvent_touches _ _ _)).trans (faultStage_sampleTouches _ _ _ _)
  · exact faultStage_sampleTouches _ _ _ _

theorem beginSample_sampleTouches (s : State) (a : AxisId) (rawA rawB rawZ : Level) :
    s.SampleTouches (s.beginSample a rawA rawB rawZ).1 := by
  unfold State.beginSample
  dsimp only
  split
  · exact ⟨_, _, _, _, _, _, _, _, _, rfl⟩
  · exact ⟨_, _, _, _, _, _, _, _, _, rfl⟩

theorem advance_sampleTouches (s : State) (r : SampleRun) : s.SampleTouches (s.advance r).1 := by
  unfold State.advance
  split
  · exact fire_sampleTouches _ _ _ _
  · exact checkStep_sampleTouches _ _ _ _
  · exact land_sampleTouches _ _ _ _
  · exact .refl s

theorem finishSample_sampleTouches (s : State) (r : SampleRun) : s.SampleTouches (s.finishSample r) := by
  unfold State.finishSample State.finishOffer
  split
  · exact runStages_sampleTouches _ _ _ _ _ _
  · exact ((firings_sampleTouches s _ _ _).trans (checkStep_sampleTouches _ _ _ _)).trans (runStages_sampleTouches _ _ _ _ _ _)

theorem finishRuns_sampleTouches (s : State) (c : List Crossing) (runs : List SampleRun) :
    s.SampleTouches (finishRuns s c runs).1 := by
  induction runs generalizing s c with
  | nil => exact .refl s
  | cons r rest ih => exact (finishSample_sampleTouches s r).trans (ih _ _)

/-- What a crossing capture changes: the axis parts in the snapshot table (R126). -/
theorem showCrossing_touches (runs : List SampleRun) (s : State) (x : Crossing) :
    ∃ y, s.showCrossing runs x = { s with snaps := y } := ⟨_, rfl⟩

theorem close_sampleTouches (w : Weaving) : w.state.SampleTouches w.close := by
  have h : ∀ (l : List Crossing) (s : State), s.SampleTouches (l.foldl (State.showCrossing w.runs) s) := by
    intro l
    induction l with
    | nil => exact fun s => .refl s
    | cons x rest ih => exact fun s => State.SampleTouches.trans ⟨_, _, _, _, _, _, _, _, _, rfl⟩ (ih _)
  exact (finishRuns_sampleTouches _ _ _).trans (h _ _)

/-- A decoded sample, and capture inputs besides: the fields SAMPLE_TAKEN can touch. -/
def State.WeaveTouches (s t : State) : Prop := ∃ c, ({ s with cap := c } : State).SampleTouches t

theorem State.SampleTouches.weave {s t : State} (h : s.SampleTouches t) : s.WeaveTouches t := ⟨s.cap, h⟩

theorem State.WeaveTouches.trans {s t u : State} (h : s.WeaveTouches t) (g : t.WeaveTouches u) : s.WeaveTouches u := by
  obtain ⟨_, _, _, _, _, _, _, _, _, _, rfl⟩ := h
  obtain ⟨_, _, _, _, _, _, _, _, _, _, rfl⟩ := g
  exact ⟨_, _, _, _, _, _, _, _, _, _, rfl⟩

theorem runCap_weaveTouches (s : State) (c : CapId) (raw : Level) : s.WeaveTouches (s.runCap c raw) := by
  unfold State.runCap
  split
  · exact ⟨_, .refl _⟩
  · obtain ⟨_, _, _, _, h⟩ := edgeCapture_touches (s.filterCap c raw) c (isHigh raw)
    exact ⟨(s.filterCap c raw).cap, _, _, _, _, _, _, _, _, _, h⟩

theorem takeRequest_snap_weaveTouches (s : State) (p : PortId) : s.WeaveTouches (s.takeRequest p .snap (snapReply p)) := by
  unfold State.takeRequest
  split
  · split
    · refine State.SampleTouches.weave ?_
      unfold snapReply withArgs
      split
      · exact ⟨_, _, _, _, _, _, _, _, _, rfl⟩
      · obtain ⟨_, _, _, _, h⟩ := capture_touches (s.popRequest p) (.host p) (s.popRequest p).time (onePort p ||| _) (some p)
        dsimp only
        rw [h]
        exact ⟨_, _, _, _, _, _, _, _, _, rfl⟩
    · exact (State.SampleTouches.refl s).weave
  · exact (State.SampleTouches.refl s).weave

theorem take_weaveTouches (ph : ClkPhase) (w : Weaving) (x : Between) : w.state.WeaveTouches (w.take ph x).state := by
  cases x with
  | edge c raw late => exact runCap_weaveTouches _ _ _
  | snap p late => exact takeRequest_snap_weaveTouches _ _
  | start b rawA rawB rawZ =>
    change w.state.WeaveTouches (if _ then _ else _ : Weaving).state
    split
    · exact (beginSample_sampleTouches _ _ _ _ _).weave
    · exact (State.SampleTouches.refl _).weave
  | go b late =>
    simp only [Weaving.take]
    split
    · exact (State.SampleTouches.refl _).weave
    · exact (advance_sampleTouches _ _).weave

/-- A sample touches no claim, no device time, no quiet window, and not the queue of commands, whatever is taken between its
parts. -/
theorem sample_weaveTouches (s : State) (a : AxisId) (course : SampleCourse) (rawA rawB rawZ : Level) :
    s.WeaveTouches (s.sample a course rawA rawB rawZ) := by
  have h : ∀ (l : List Between) (w : Weaving), w.state.WeaveTouches (l.foldl (Weaving.take course.half) w).state := by
    intro l
    induction l with
    | nil => exact fun w => (State.SampleTouches.refl _).weave
    | cons x rest ih => exact fun w => (take_weaveTouches _ w x).trans (ih _)
  unfold State.sample
  exact ((beginSample_sampleTouches s a rawA rawB rawZ).weave.trans (h course.between _)).trans (close_sampleTouches _).weave

/-- With nothing taken between its parts, a sample is begun and brought to its end. -/
theorem sample_nil (s : State) (a : AxisId) (ph : ClkPhase) (rawA rawB rawZ : Level) :
    s.sample a ⟨ph, []⟩ rawA rawB rawZ = match (s.beginSample a rawA rawB rawZ).2 with
      | none => (s.beginSample a rawA rawB rawZ).1
      | some r => (s.beginSample a rawA rawB rawZ).1.finishSample r := by
  unfold State.sample Weaving.begin Weaving.close
  cases h : (s.beginSample a rawA rawB rawZ).2 <;> simp [finishRuns, crossingsOf]

/-! ### Expiries and commands -/

theorem raise_touches (s : State) (p : PortId) (n : Notice) : ∃ x, s.raise p n = { s with ports := x } := ⟨_, rfl⟩

theorem raiseCancelled_touches (s : State) (p : PortId) (a : AxisId) (n : Nat) :
    ∃ x, s.raiseCancelled p a n = { s with ports := x } := by
  unfold State.raiseCancelled
  split <;> exact ⟨_, rfl⟩

theorem raiseAllCancelled_touches (s before : State) (p : PortId) (slots : List SlotId) :
    ∃ x, s.raiseAllCancelled before p slots = { s with ports := x } := by
  unfold State.raiseAllCancelled
  generalize List.finRange 4 = l
  induction l generalizing s with
  | nil => exact ⟨_, rfl⟩
  | cons a rest ih =>
    obtain ⟨x, h⟩ := raiseCancelled_touches s p a (before.countOn a slots)
    obtain ⟨x', h'⟩ := ih (s.raiseCancelled p a (before.countOn a slots))
    rw [List.foldl_cons, h', h]
    exact ⟨_, rfl⟩

theorem takeStall_touches (s : State) (a : AxisId) : ∃ x y, s.takeStall a = { s with axes := x, ports := y } := by
  unfold State.takeStall
  obtain ⟨y, h⟩ := raiseSubscribed_touches (s.modAxis a (fun r => { r with
      motion := .stopped
      lastInterval := none
      timingRun := .closed
      stall := none })) (subMotion a) (.motionChanged a .stopped)
  rw [h]
  exact ⟨_, _, rfl⟩

theorem takeLease_touches (s : State) (subj : Subject) :
    ∃ c l x y w, s.takeLease subj = { s with claims := c, lines := l, pool := x, booked := y, ports := w } := by
  unfold State.takeLease
  split
  · exact ⟨_, _, _, _, _, rfl⟩
  · rename_i p _
    obtain ⟨w, hw⟩ := raiseAllCancelled_touches ((s.freeSubject subj).raise p (.claimLost subj)) s p (s.cancelledBy subj)
    obtain ⟨c, l, x, y, h⟩ := freeSubject_touches s subj
    rw [hw, h]
    exact ⟨_, _, _, _, _, rfl⟩

theorem cancelAxisEntries_touches (s : State) (a : AxisId) :
    ∃ x y w, s.cancelAxisEntries a = { s with pool := x, booked := y, ports := w } := by
  unfold State.cancelAxisEntries
  dsimp only
  obtain ⟨x, y, h⟩ := freeEntries_touches s (s.slotsWhere (fun e => decide (e.axis = a)))
  rw [h]
  have key : ∀ (l : List PortId) (f : PortId → Nat) (u : State),
      ∃ w, l.foldl (fun t p => t.raiseCancelled p a (f p)) u = { u with ports := w } := by
    intro l f
    induction l with
    | nil => intro u; exact ⟨_, rfl⟩
    | cons p rest ih =>
      intro u
      obtain ⟨w, hw⟩ := raiseCancelled_touches u p a (f p)
      obtain ⟨w', hw'⟩ := ih (u.raiseCancelled p a (f p))
      rw [List.foldl_cons, hw', hw]
      exact ⟨_, rfl⟩
  obtain ⟨w, hw⟩ := key (List.finRange 3) (fun p => s.countOf p (s.slotsWhere (fun e => decide (e.axis = a))))
    { s with pool := x, booked := y }
  exact ⟨x, y, w, hw⟩

theorem configure_touches (s : State) (a : AxisId) (half : ClkPhase) (c : AxisConfig) :
    ∃ x y z w, s.configure a half c = { s with axes := x, pool := y, booked := z, ports := w } := by
  unfold State.configure
  split
  · obtain ⟨x, y, w, h⟩ := changeReference_touches (s.modAxis a (fun r => (r.configure half c).unplace)) a .unreferenced
      (s.axis a).epoch
    obtain ⟨y', z', w', h'⟩ := cancelAxisEntries_touches ((s.modAxis a (fun r => (r.configure half c).unplace)).changeReference
      a .unreferenced (s.axis a).epoch) a
    rw [h', h]
    exact ⟨_, _, _, _, rfl⟩
  · exact ⟨_, _, _, _, rfl⟩

theorem freeSubjectsOf_touches (s : State) (p : PortId) :
    ∃ c l x y, s.freeSubjectsOf p = { s with claims := c, lines := l, pool := x, booked := y } := by
  unfold State.freeSubjectsOf
  generalize allSubjects.filter (s.holdsClaim p) = subjects
  induction subjects generalizing s with
  | nil => exact ⟨_, _, _, _, rfl⟩
  | cons subj rest ih =>
    obtain ⟨c, l, x, y, h⟩ := freeSubject_touches s subj
    obtain ⟨c', l', x', y', h'⟩ := ih (s.freeSubject subj)
    rw [List.foldl_cons, h', h]
    exact ⟨_, _, _, _, rfl⟩

theorem freeEntriesOf_touches (s : State) (p : PortId) : ∃ x y, s.freeEntriesOf p = { s with pool := x, booked := y } :=
  freeEntries_touches s _

theorem leaveAllSnaps_touches (s : State) (p : PortId) : ∃ x y, s.leaveAllSnaps p = { s with snaps := x, holds := y } :=
  ⟨_, _, rfl⟩

/-- A port reset touches neither axes nor inputs nor device time (R78, R101, R138, R158). -/
theorem resetPort_touches (s : State) (p : PortId) :
    ∃ c l x y n h w, s.resetPort p = { s with
      claims := c, lines := l, pool := x, booked := y, snaps := n, holds := h, ports := w } := by
  unfold State.resetPort
  obtain ⟨n, h, e⟩ := leaveAllSnaps_touches (s.modPort p PortRec.clear) p
  rw [e]
  generalize hu : ({ s.modPort p PortRec.clear with snaps := n, holds := h } : State) = u
  obtain ⟨c, l, x, y, e'⟩ := freeSubjectsOf_touches u p
  rw [e']
  generalize hv : ({ u with claims := c, lines := l, pool := x, booked := y } : State) = v
  obtain ⟨x', y', e''⟩ := freeEntriesOf_touches v p
  rw [e'']
  subst hv hu
  exact ⟨_, _, _, _, _, _, _, rfl⟩

end Sys2Proof.Machine
end

