-- ==== Sys2Proof/Laws/Words.lean ====
section
/-! SUPPORT. Every field that the operations the statements are written with leave as it was. -/

namespace Sys2Proof.Machine

/-! ### told -/

@[simp] theorem told_pending (s : State) (who : PortId → Bool) (n : Notice) : (s.told who n).pending = s.pending := rfl
@[simp] theorem told_time (s : State) (who : PortId → Bool) (n : Notice) : (s.told who n).time = s.time := rfl
@[simp] theorem told_axes (s : State) (who : PortId → Bool) (n : Notice) : (s.told who n).axes = s.axes := rfl
@[simp] theorem told_axis (s : State) (who : PortId → Bool) (n : Notice) (b : AxisId) : (s.told who n).axis b = s.axis b := rfl
@[simp] theorem told_qw (s : State) (who : PortId → Bool) (n : Notice) : (s.told who n).qw = s.qw := rfl
@[simp] theorem told_cap (s : State) (who : PortId → Bool) (n : Notice) : (s.told who n).cap = s.cap := rfl
@[simp] theorem told_claims (s : State) (who : PortId → Bool) (n : Notice) : (s.told who n).claims = s.claims := rfl
@[simp] theorem told_claim (s : State) (who : PortId → Bool) (n : Notice) (subj' : Subject) : (s.told who n).claim subj' = s.claim subj' := rfl
@[simp] theorem told_lines (s : State) (who : PortId → Bool) (n : Notice) : (s.told who n).lines = s.lines := rfl
@[simp] theorem told_line (s : State) (who : PortId → Bool) (n : Notice) (k : LineId) : (s.told who n).line k = s.line k := rfl
@[simp] theorem told_pool (s : State) (who : PortId → Bool) (n : Notice) : (s.told who n).pool = s.pool := rfl
@[simp] theorem told_slot (s : State) (who : PortId → Bool) (n : Notice) (j : SlotId) : (s.told who n).slot j = s.slot j := rfl
@[simp] theorem told_booked (s : State) (who : PortId → Bool) (n : Notice) : (s.told who n).booked = s.booked := rfl
@[simp] theorem told_nextSerial (s : State) (who : PortId → Bool) (n : Notice) : (s.told who n).nextSerial = s.nextSerial := rfl
@[simp] theorem told_snaps (s : State) (who : PortId → Bool) (n : Notice) : (s.told who n).snaps = s.snaps := rfl
@[simp] theorem told_nextCapture (s : State) (who : PortId → Bool) (n : Notice) : (s.told who n).nextCapture = s.nextCapture := rfl
@[simp] theorem told_holds (s : State) (who : PortId → Bool) (n : Notice) : (s.told who n).holds = s.holds := rfl
@[simp] theorem told_draws (s : State) (who : PortId → Bool) (n : Notice) : (s.told who n).draws = s.draws := rfl

/-! ### toldSubscribers -/

@[simp] theorem toldSubscribers_pending (s : State) (bit : Nat) (n : Notice) : (s.toldSubscribers bit n).pending = s.pending := rfl
@[simp] theorem toldSubscribers_time (s : State) (bit : Nat) (n : Notice) : (s.toldSubscribers bit n).time = s.time := rfl
@[simp] theorem toldSubscribers_axes (s : State) (bit : Nat) (n : Notice) : (s.toldSubscribers bit n).axes = s.axes := rfl
@[simp] theorem toldSubscribers_axis (s : State) (bit : Nat) (n : Notice) (b : AxisId) : (s.toldSubscribers bit n).axis b = s.axis b := rfl
@[simp] theorem toldSubscribers_qw (s : State) (bit : Nat) (n : Notice) : (s.toldSubscribers bit n).qw = s.qw := rfl
@[simp] theorem toldSubscribers_cap (s : State) (bit : Nat) (n : Notice) : (s.toldSubscribers bit n).cap = s.cap := rfl
@[simp] theorem toldSubscribers_claims (s : State) (bit : Nat) (n : Notice) : (s.toldSubscribers bit n).claims = s.claims := rfl
@[simp] theorem toldSubscribers_claim (s : State) (bit : Nat) (n : Notice) (subj' : Subject) : (s.toldSubscribers bit n).claim subj' = s.claim subj' := rfl
@[simp] theorem toldSubscribers_lines (s : State) (bit : Nat) (n : Notice) : (s.toldSubscribers bit n).lines = s.lines := rfl
@[simp] theorem toldSubscribers_line (s : State) (bit : Nat) (n : Notice) (k : LineId) : (s.toldSubscribers bit n).line k = s.line k := rfl
@[simp] theorem toldSubscribers_pool (s : State) (bit : Nat) (n : Notice) : (s.toldSubscribers bit n).pool = s.pool := rfl
@[simp] theorem toldSubscribers_slot (s : State) (bit : Nat) (n : Notice) (j : SlotId) : (s.toldSubscribers bit n).slot j = s.slot j := rfl
@[simp] theorem toldSubscribers_booked (s : State) (bit : Nat) (n : Notice) : (s.toldSubscribers bit n).booked = s.booked := rfl
@[simp] theorem toldSubscribers_nextSerial (s : State) (bit : Nat) (n : Notice) : (s.toldSubscribers bit n).nextSerial = s.nextSerial := rfl
@[simp] theorem toldSubscribers_snaps (s : State) (bit : Nat) (n : Notice) : (s.toldSubscribers bit n).snaps = s.snaps := rfl
@[simp] theorem toldSubscribers_nextCapture (s : State) (bit : Nat) (n : Notice) : (s.toldSubscribers bit n).nextCapture = s.nextCapture := rfl
@[simp] theorem toldSubscribers_holds (s : State) (bit : Nat) (n : Notice) : (s.toldSubscribers bit n).holds = s.holds := rfl
@[simp] theorem toldSubscribers_draws (s : State) (bit : Nat) (n : Notice) : (s.toldSubscribers bit n).draws = s.draws := rfl

/-! ### entriesMarked -/

@[simp] theorem entriesMarked_pending (s : State) (a : AxisId) (st : EntryState) : (s.entriesMarked a st).pending = s.pending := rfl
@[simp] theorem entriesMarked_time (s : State) (a : AxisId) (st : EntryState) : (s.entriesMarked a st).time = s.time := rfl
@[simp] theorem entriesMarked_axes (s : State) (a : AxisId) (st : EntryState) : (s.entriesMarked a st).axes = s.axes := rfl
@[simp] theorem entriesMarked_axis (s : State) (a : AxisId) (st : EntryState) (b : AxisId) : (s.entriesMarked a st).axis b = s.axis b := rfl
@[simp] theorem entriesMarked_qw (s : State) (a : AxisId) (st : EntryState) : (s.entriesMarked a st).qw = s.qw := rfl
@[simp] theorem entriesMarked_cap (s : State) (a : AxisId) (st : EntryState) : (s.entriesMarked a st).cap = s.cap := rfl
@[simp] theorem entriesMarked_claims (s : State) (a : AxisId) (st : EntryState) : (s.entriesMarked a st).claims = s.claims := rfl
@[simp] theorem entriesMarked_claim (s : State) (a : AxisId) (st : EntryState) (subj' : Subject) : (s.entriesMarked a st).claim subj' = s.claim subj' := rfl
@[simp] theorem entriesMarked_lines (s : State) (a : AxisId) (st : EntryState) : (s.entriesMarked a st).lines = s.lines := rfl
@[simp] theorem entriesMarked_line (s : State) (a : AxisId) (st : EntryState) (k : LineId) : (s.entriesMarked a st).line k = s.line k := rfl
@[simp] theorem entriesMarked_booked (s : State) (a : AxisId) (st : EntryState) : (s.entriesMarked a st).booked = s.booked := rfl
@[simp] theorem entriesMarked_nextSerial (s : State) (a : AxisId) (st : EntryState) : (s.entriesMarked a st).nextSerial = s.nextSerial := rfl
@[simp] theorem entriesMarked_snaps (s : State) (a : AxisId) (st : EntryState) : (s.entriesMarked a st).snaps = s.snaps := rfl
@[simp] theorem entriesMarked_nextCapture (s : State) (a : AxisId) (st : EntryState) : (s.entriesMarked a st).nextCapture = s.nextCapture := rfl
@[simp] theorem entriesMarked_holds (s : State) (a : AxisId) (st : EntryState) : (s.entriesMarked a st).holds = s.holds := rfl
@[simp] theorem entriesMarked_ports (s : State) (a : AxisId) (st : EntryState) : (s.entriesMarked a st).ports = s.ports := rfl
@[simp] theorem entriesMarked_port (s : State) (a : AxisId) (st : EntryState) (q : PortId) : (s.entriesMarked a st).port q = s.port q := rfl
@[simp] theorem entriesMarked_draws (s : State) (a : AxisId) (st : EntryState) : (s.entriesMarked a st).draws = s.draws := rfl

/-! ### withoutEntries -/

@[simp] theorem withoutEntries_pending (s : State) (cond : Entry → Bool) : (s.withoutEntries cond).pending = s.pending := rfl
@[simp] theorem withoutEntries_time (s : State) (cond : Entry → Bool) : (s.withoutEntries cond).time = s.time := rfl
@[simp] theorem withoutEntries_axes (s : State) (cond : Entry → Bool) : (s.withoutEntries cond).axes = s.axes := rfl
@[simp] theorem withoutEntries_axis (s : State) (cond : Entry → Bool) (b : AxisId) : (s.withoutEntries cond).axis b = s.axis b := rfl
@[simp] theorem withoutEntries_qw (s : State) (cond : Entry → Bool) : (s.withoutEntries cond).qw = s.qw := rfl
@[simp] theorem withoutEntries_cap (s : State) (cond : Entry → Bool) : (s.withoutEntries cond).cap = s.cap := rfl
@[simp] theorem withoutEntries_claims (s : State) (cond : Entry → Bool) : (s.withoutEntries cond).claims = s.claims := rfl
@[simp] theorem withoutEntries_claim (s : State) (cond : Entry → Bool) (subj' : Subject) : (s.withoutEntries cond).claim subj' = s.claim subj' := rfl
@[simp] theorem withoutEntries_lines (s : State) (cond : Entry → Bool) : (s.withoutEntries cond).lines = s.lines := rfl
@[simp] theorem withoutEntries_line (s : State) (cond : Entry → Bool) (k : LineId) : (s.withoutEntries cond).line k = s.line k := rfl
@[simp] theorem withoutEntries_nextSerial (s : State) (cond : Entry → Bool) : (s.withoutEntries cond).nextSerial = s.nextSerial := rfl
@[simp] theorem withoutEntries_snaps (s : State) (cond : Entry → Bool) : (s.withoutEntries cond).snaps = s.snaps := rfl
@[simp] theorem withoutEntries_nextCapture (s : State) (cond : Entry → Bool) : (s.withoutEntries cond).nextCapture = s.nextCapture := rfl
@[simp] theorem withoutEntries_holds (s : State) (cond : Entry → Bool) : (s.withoutEntries cond).holds = s.holds := rfl
@[simp] theorem withoutEntries_ports (s : State) (cond : Entry → Bool) : (s.withoutEntries cond).ports = s.ports := rfl
@[simp] theorem withoutEntries_port (s : State) (cond : Entry → Bool) (q : PortId) : (s.withoutEntries cond).port q = s.port q := rfl
@[simp] theorem withoutEntries_draws (s : State) (cond : Entry → Bool) : (s.withoutEntries cond).draws = s.draws := rfl

/-! ### used -/

@[simp] theorem used_pending (s : State) (subj : Subject) : (s.used subj).pending = s.pending := rfl
@[simp] theorem used_time (s : State) (subj : Subject) : (s.used subj).time = s.time := rfl
@[simp] theorem used_axes (s : State) (subj : Subject) : (s.used subj).axes = s.axes := rfl
@[simp] theorem used_axis (s : State) (subj : Subject) (b : AxisId) : (s.used subj).axis b = s.axis b := rfl
@[simp] theorem used_qw (s : State) (subj : Subject) : (s.used subj).qw = s.qw := rfl
@[simp] theorem used_cap (s : State) (subj : Subject) : (s.used subj).cap = s.cap := rfl
@[simp] theorem used_lines (s : State) (subj : Subject) : (s.used subj).lines = s.lines := rfl
@[simp] theorem used_line (s : State) (subj : Subject) (k : LineId) : (s.used subj).line k = s.line k := rfl
@[simp] theorem used_pool (s : State) (subj : Subject) : (s.used subj).pool = s.pool := rfl
@[simp] theorem used_slot (s : State) (subj : Subject) (j : SlotId) : (s.used subj).slot j = s.slot j := rfl
@[simp] theorem used_booked (s : State) (subj : Subject) : (s.used subj).booked = s.booked := rfl
@[simp] theorem used_nextSerial (s : State) (subj : Subject) : (s.used subj).nextSerial = s.nextSerial := rfl
@[simp] theorem used_snaps (s : State) (subj : Subject) : (s.used subj).snaps = s.snaps := rfl
@[simp] theorem used_nextCapture (s : State) (subj : Subject) : (s.used subj).nextCapture = s.nextCapture := rfl
@[simp] theorem used_holds (s : State) (subj : Subject) : (s.used subj).holds = s.holds := rfl
@[simp] theorem used_ports (s : State) (subj : Subject) : (s.used subj).ports = s.ports := rfl
@[simp] theorem used_port (s : State) (subj : Subject) (q : PortId) : (s.used subj).port q = s.port q := rfl
@[simp] theorem used_draws (s : State) (subj : Subject) : (s.used subj).draws = s.draws := rfl

/-! ### answered -/

@[simp] theorem answered_pending (s : State) (p : PortId) (tag : Byte) (body : List Byte) : (s.answered p tag body).pending = s.pending := rfl
@[simp] theorem answered_time (s : State) (p : PortId) (tag : Byte) (body : List Byte) : (s.answered p tag body).time = s.time := rfl
@[simp] theorem answered_axes (s : State) (p : PortId) (tag : Byte) (body : List Byte) : (s.answered p tag body).axes = s.axes := rfl
@[simp] theorem answered_axis (s : State) (p : PortId) (tag : Byte) (body : List Byte) (b : AxisId) : (s.answered p tag body).axis b = s.axis b := rfl
@[simp] theorem answered_qw (s : State) (p : PortId) (tag : Byte) (body : List Byte) : (s.answered p tag body).qw = s.qw := rfl
@[simp] theorem answered_cap (s : State) (p : PortId) (tag : Byte) (body : List Byte) : (s.answered p tag body).cap = s.cap := rfl
@[simp] theorem answered_claims (s : State) (p : PortId) (tag : Byte) (body : List Byte) : (s.answered p tag body).claims = s.claims := rfl
@[simp] theorem answered_claim (s : State) (p : PortId) (tag : Byte) (body : List Byte) (subj' : Subject) : (s.answered p tag body).claim subj' = s.claim subj' := rfl
@[simp] theorem answered_lines (s : State) (p : PortId) (tag : Byte) (body : List Byte) : (s.answered p tag body).lines = s.lines := rfl
@[simp] theorem answered_line (s : State) (p : PortId) (tag : Byte) (body : List Byte) (k : LineId) : (s.answered p tag body).line k = s.line k := rfl
@[simp] theorem answered_pool (s : State) (p : PortId) (tag : Byte) (body : List Byte) : (s.answered p tag body).pool = s.pool := rfl
@[simp] theorem answered_slot (s : State) (p : PortId) (tag : Byte) (body : List Byte) (j : SlotId) : (s.answered p tag body).slot j = s.slot j := rfl
@[simp] theorem answered_booked (s : State) (p : PortId) (tag : Byte) (body : List Byte) : (s.answered p tag body).booked = s.booked := rfl
@[simp] theorem answered_nextSerial (s : State) (p : PortId) (tag : Byte) (body : List Byte) : (s.answered p tag body).nextSerial = s.nextSerial := rfl
@[simp] theorem answered_snaps (s : State) (p : PortId) (tag : Byte) (body : List Byte) : (s.answered p tag body).snaps = s.snaps := rfl
@[simp] theorem answered_nextCapture (s : State) (p : PortId) (tag : Byte) (body : List Byte) : (s.answered p tag body).nextCapture = s.nextCapture := rfl
@[simp] theorem answered_holds (s : State) (p : PortId) (tag : Byte) (body : List Byte) : (s.answered p tag body).holds = s.holds := rfl
@[simp] theorem answered_draws (s : State) (p : PortId) (tag : Byte) (body : List Byte) : (s.answered p tag body).draws = s.draws := rfl

/-! ### popRequest -/

@[simp] theorem popRequest_pending (s : State) (p : PortId) : (s.popRequest p).pending = s.pending := rfl
@[simp] theorem popRequest_time (s : State) (p : PortId) : (s.popRequest p).time = s.time := rfl
@[simp] theorem popRequest_axes (s : State) (p : PortId) : (s.popRequest p).axes = s.axes := rfl
@[simp] theorem popRequest_axis (s : State) (p : PortId) (b : AxisId) : (s.popRequest p).axis b = s.axis b := rfl
@[simp] theorem popRequest_qw (s : State) (p : PortId) : (s.popRequest p).qw = s.qw := rfl
@[simp] theorem popRequest_cap (s : State) (p : PortId) : (s.popRequest p).cap = s.cap := rfl
@[simp] theorem popRequest_claims (s : State) (p : PortId) : (s.popRequest p).claims = s.claims := rfl
@[simp] theorem popRequest_claim (s : State) (p : PortId) (subj' : Subject) : (s.popRequest p).claim subj' = s.claim subj' := rfl
@[simp] theorem popRequest_lines (s : State) (p : PortId) : (s.popRequest p).lines = s.lines := rfl
@[simp] theorem popRequest_line (s : State) (p : PortId) (k : LineId) : (s.popRequest p).line k = s.line k := rfl
@[simp] theorem popRequest_pool (s : State) (p : PortId) : (s.popRequest p).pool = s.pool := rfl
@[simp] theorem popRequest_slot (s : State) (p : PortId) (j : SlotId) : (s.popRequest p).slot j = s.slot j := rfl
@[simp] theorem popRequest_booked (s : State) (p : PortId) : (s.popRequest p).booked = s.booked := rfl
@[simp] theorem popRequest_nextSerial (s : State) (p : PortId) : (s.popRequest p).nextSerial = s.nextSerial := rfl
@[simp] theorem popRequest_snaps (s : State) (p : PortId) : (s.popRequest p).snaps = s.snaps := rfl
@[simp] theorem popRequest_nextCapture (s : State) (p : PortId) : (s.popRequest p).nextCapture = s.nextCapture := rfl
@[simp] theorem popRequest_holds (s : State) (p : PortId) : (s.popRequest p).holds = s.holds := rfl
@[simp] theorem popRequest_draws (s : State) (p : PortId) : (s.popRequest p).draws = s.draws := rfl

/-! ### setEntryStates -/

@[simp] theorem setEntryStates_pending (s : State) (a : AxisId) (st : EntryState) : (s.setEntryStates a st).pending = s.pending := rfl
@[simp] theorem setEntryStates_time (s : State) (a : AxisId) (st : EntryState) : (s.setEntryStates a st).time = s.time := rfl
@[simp] theorem setEntryStates_axes (s : State) (a : AxisId) (st : EntryState) : (s.setEntryStates a st).axes = s.axes := rfl
@[simp] theorem setEntryStates_axis (s : State) (a : AxisId) (st : EntryState) (b : AxisId) : (s.setEntryStates a st).axis b = s.axis b := rfl
@[simp] theorem setEntryStates_qw (s : State) (a : AxisId) (st : EntryState) : (s.setEntryStates a st).qw = s.qw := rfl
@[simp] theorem setEntryStates_cap (s : State) (a : AxisId) (st : EntryState) : (s.setEntryStates a st).cap = s.cap := rfl
@[simp] theorem setEntryStates_claims (s : State) (a : AxisId) (st : EntryState) : (s.setEntryStates a st).claims = s.claims := rfl
@[simp] theorem setEntryStates_claim (s : State) (a : AxisId) (st : EntryState) (subj' : Subject) : (s.setEntryStates a st).claim subj' = s.claim subj' := rfl
@[simp] theorem setEntryStates_lines (s : State) (a : AxisId) (st : EntryState) : (s.setEntryStates a st).lines = s.lines := rfl
@[simp] theorem setEntryStates_line (s : State) (a : AxisId) (st : EntryState) (k : LineId) : (s.setEntryStates a st).line k = s.line k := rfl
@[simp] theorem setEntryStates_booked (s : State) (a : AxisId) (st : EntryState) : (s.setEntryStates a st).booked = s.booked := rfl
@[simp] theorem setEntryStates_nextSerial (s : State) (a : AxisId) (st : EntryState) : (s.setEntryStates a st).nextSerial = s.nextSerial := rfl
@[simp] theorem setEntryStates_snaps (s : State) (a : AxisId) (st : EntryState) : (s.setEntryStates a st).snaps = s.snaps := rfl
@[simp] theorem setEntryStates_nextCapture (s : State) (a : AxisId) (st : EntryState) : (s.setEntryStates a st).nextCapture = s.nextCapture := rfl
@[simp] theorem setEntryStates_holds (s : State) (a : AxisId) (st : EntryState) : (s.setEntryStates a st).holds = s.holds := rfl
@[simp] theorem setEntryStates_ports (s : State) (a : AxisId) (st : EntryState) : (s.setEntryStates a st).ports = s.ports := rfl
@[simp] theorem setEntryStates_port (s : State) (a : AxisId) (st : EntryState) (q : PortId) : (s.setEntryStates a st).port q = s.port q := rfl
@[simp] theorem setEntryStates_draws (s : State) (a : AxisId) (st : EntryState) : (s.setEntryStates a st).draws = s.draws := rfl

/-! ### The record that was replaced -/

@[simp] theorem toldSubscribers_port (s : State) (bit : Nat) (n : Notice) (q : PortId) :
    (s.toldSubscribers bit n).port q = if (s.port q).hears bit n then (s.port q).accept n else s.port q :=
  told_port s _ n q

@[simp] theorem entriesMarked_slot (s : State) (a : AxisId) (st : EntryState) (i : SlotId) :
    (s.entriesMarked a st).slot i = (s.slot i).setState st a := by
  simp only [State.entriesMarked, State.slot, map_get]
  rfl

@[simp] theorem setEntryStates_slot (s : State) (a : AxisId) (st : EntryState) (i : SlotId) :
    (s.setEntryStates a st).slot i = (s.slot i).setState st a := by
  simp [State.setEntryStates, State.slot]

theorem withoutEntries_slot (s : State) (cond : Entry → Bool) (i : SlotId) :
    (s.withoutEntries cond).slot i = match (s.slot i).entry with
      | some e => if cond e then ⟨(s.slot i).gen + 1#8, none⟩ else s.slot i
      | none => s.slot i := by
  simp only [State.withoutEntries, State.slot, map_get] <;> rfl

@[simp] theorem withoutEntries_booked (s : State) (cond : Entry → Bool) (p : PortId) :
    (s.withoutEntries cond).booked.get p = s.booked.get p - s.ownedWhere p cond := by
  simp [State.withoutEntries]

theorem used_claim (s : State) (subj subj' : Subject) :
    (s.used subj).claim subj' = if subj' = subj then (s.claim subj).used s.time else s.claim subj' :=
  modClaim_claim s subj subj' _

theorem answered_port (s : State) (p q : PortId) (tag : Byte) (body : List Byte) :
    (s.answered p tag body).port q = if q = p then (s.port p).answered tag body else s.port q :=
  modPort_port s p q _

theorem popRequest_port (s : State) (p q : PortId) :
    (s.popRequest p).port q = if q = p then { s.port p with requests := (s.port p).requests.tail } else s.port q :=
  modPort_port s p q _

/-- The operation of R96 and R97 in the words of the statements. -/
theorem setEntryStates_eq (s : State) (a : AxisId) (st : EntryState) : s.setEntryStates a st = s.entriesMarked a st := by
  unfold State.setEntryStates State.entriesMarked
  congr 1

end Sys2Proof.Machine
end

