-- ==== Sys2Proof/Laws/Pool.lean ====
section
/-! SUPPORT. Freeing entries of the compare pool: what becomes of each slot and of each port's count (R84); giving serials
to the entries of an axis (R86). -/

namespace Sys2Proof.Machine

/-- The slots that `slotsWhere` lists. -/
theorem mem_slotsWhere {s : State} {cond : Entry → Bool} {i : SlotId} :
    i ∈ s.slotsWhere cond ↔ ∃ e, (s.slot i).entry = some e ∧ cond e = true := by
  unfold State.slotsWhere
  cases h : (s.slot i).entry <;> simp [h]

theorem slotsWhere_nodup (s : State) (cond : Entry → Bool) : (s.slotsWhere cond).Nodup :=
  (List.nodup_finRange 64).filter _

/-- The number of a port's entries that meet a condition is the number of the slots listed for both. -/
theorem ownedWhere_eq_length (s : State) (p : PortId) (cond : Entry → Bool) :
    s.ownedWhere p cond = (s.slotsWhere (fun e => decide (e.owner = p) && cond e)).length := by
  unfold State.ownedWhere State.slotsWhere
  rw [List.countP_eq_length_filter] <;> congr 2

/-- A slot after one entry is freed. -/
theorem freeEntry_slot (s : State) (i j : SlotId) :
    (s.freeEntry i).slot j
      = if j = i ∧ (s.slot i).entry ≠ none then ⟨(s.slot i).gen + 1#8, none⟩ else s.slot j := by
  unfold State.freeEntry
  cases h : (s.slot i).entry with
  | none => simp
  | some e =>
    change (s.setSlot i ⟨(s.slot i).gen + 1#8, none⟩).slot j = _
    simp [setSlot_slot]

/-- A port's count after one entry is freed. -/
theorem freeEntry_booked (s : State) (i : SlotId) (p : PortId) :
    (s.freeEntry i).booked.get p
      = s.booked.get p - if (s.slot i).entry.map Entry.owner = some p then 1 else 0 := by
  unfold State.freeEntry
  cases h : (s.slot i).entry with
  | none => simp
  | some e =>
    by_cases hp : e.owner = p
    · subst hp
      simp
    · have : p ≠ e.owner := fun e => hp e.symm
      simp [upd_get_ne _ this, hp]

/-- Slots and counts after the entries of distinct slots are freed one after another. -/
theorem freeEntries_slots (l : List SlotId) (s : State) (hn : l.Nodup) (hx : ∀ i ∈ l, (s.slot i).entry ≠ none) :
    (∀ j, (s.freeEntries l).slot j = if j ∈ l then ⟨(s.slot j).gen + 1#8, none⟩ else s.slot j)
      ∧ ∀ p, (s.freeEntries l).booked.get p
          = s.booked.get p - (l.filter (fun i => decide ((s.slot i).entry.map Entry.owner = some p))).length := by
  induction l generalizing s with
  | nil => simp [State.freeEntries]
  | cons x xs ih =>
    have hn' := List.nodup_cons.mp hn
    have hs : ∀ i ∈ xs, (s.freeEntry x).slot i = s.slot i := by
      intro i hi
      have : i ≠ x := fun e => hn'.1 (e ▸ hi)
      simp [freeEntry_slot, this]
    obtain ⟨h1, h2⟩ := ih (s.freeEntry x) hn'.2 (by
      intro i hi
      rw [hs i hi]
      exact hx i (List.mem_cons_of_mem _ hi))
    change (∀ j, ((s.freeEntry x).freeEntries xs).slot j = _) ∧ ∀ p, ((s.freeEntry x).freeEntries xs).booked.get p = _
    refine ⟨fun j => ?_, fun p => ?_⟩
    · rw [h1]
      by_cases hj : j ∈ xs
      · simp [hj, hs j hj]
      · by_cases hx' : j = x
        · subst hx'
          simp [hj, freeEntry_slot, hx j List.mem_cons_self]
        · simp [hj, hx', freeEntry_slot]
    · have : xs.filter (fun i => decide (((s.freeEntry x).slot i).entry.map Entry.owner = some p))
          = xs.filter (fun i => decide ((s.slot i).entry.map Entry.owner = some p)) :=
        List.filter_congr (fun i hi => by rw [hs i hi])
      rw [h2, freeEntry_booked, this, List.filter_cons]
      by_cases hp : (s.slot x).entry.map Entry.owner = some p
      · simp only [hp, decide_true, if_true, List.length_cons]
        omega
      · simp only [hp, decide_false, if_false, Nat.sub_zero]
        rfl

/-- Freeing, one after another, the entries that meet a condition is freeing them all at once (R84). -/
theorem freeEntries_slotsWhere (s : State) (cond : Entry → Bool) :
    s.freeEntries (s.slotsWhere cond) = s.withoutEntries cond := by
  obtain ⟨h1, h2⟩ := freeEntries_slots (s.slotsWhere cond) s (slotsWhere_nodup s cond) (by
    intro i hi
    obtain ⟨e, he, _⟩ := mem_slotsWhere.mp hi
    simp [he])
  obtain ⟨x, y, h⟩ := freeEntries_touches s (s.slotsWhere cond)
  rw [h] at h1 h2 ⊢
  have hx : x = (s.withoutEntries cond).pool := by
    apply table_ext
    intro j
    have a1 := h1 j
    have a2 := withoutEntries_slot s cond j
    have a3 := mem_slotsWhere (s := s) (cond := cond) (i := j)
    change x.get j = _ at a1
    change (s.withoutEntries cond).pool.get j = _ at a2
    rw [a1, a2]
    cases he : (s.slot j).entry with
    | none =>
      simp only [he, reduceCtorEq, false_and, exists_false, iff_false] at a3
      simp [a3]
    | some e =>
      simp only [he, Option.some.injEq, exists_eq_left'] at a3
      by_cases hc : cond e = true <;> simp [a3, hc]
  have hy : y = (s.withoutEntries cond).booked := by
    apply table_ext
    intro p
    have hb := h2 p
    change y.get p = _ at hb
    rw [withoutEntries_booked, hb, ownedWhere_eq_length]
    congr 2
    unfold State.slotsWhere
    rw [List.filter_filter]
    apply List.filter_congr
    intro i _
    cases (s.slot i).entry <;> simp
  subst hx hy
  rfl

/-! ### Renumbering (R86) -/

/-- Giving serials touches the pool alone (R86). -/
theorem giveSerials_pool (l : List SlotId) (s : State) (n : Nat) :
    s.giveSerials n l = { s with pool := (s.giveSerials n l).pool } := by
  induction l generalizing s n with
  | nil => rfl
  | cons i rest ih =>
    unfold State.giveSerials
    rw [ih]
    cases (s.slot i).entry <;> rfl

/-- A slot after the entries of distinct slots have been given serials: the generation is kept, and the entry takes the first
serial plus its place in the list (R86). -/
theorem giveSerials_slot (l : List SlotId) (s : State) (n : Nat) (hl : l.Nodup) (i : SlotId) :
    (s.giveSerials n l).slot i
      = if i ∈ l then ⟨(s.slot i).gen, (s.slot i).entry.map (fun e => { e with serial := n + l.idxOf i })⟩ else s.slot i := by
  induction l generalizing s n with
  | nil => simp [State.giveSerials]
  | cons j rest ih =>
    have hj := List.nodup_cons.mp hl
    have hs : ∀ u : State, (∀ k, k ≠ j → u.slot k = s.slot k) →
        u.slot j = ⟨(s.slot j).gen, (s.slot j).entry.map (fun e => { e with serial := n })⟩ →
        (u.giveSerials (n + 1) rest).slot i = if i ∈ j :: rest then
          ⟨(s.slot i).gen, (s.slot i).entry.map (fun e => { e with serial := n + (j :: rest).idxOf i })⟩ else s.slot i := by
      intro u hu huj
      rw [ih u (n + 1) hj.2]
      by_cases hi : i = j
      · subst hi
        rw [if_neg hj.1, if_pos (by simp), huj]
        simp
      · rw [hu i hi]
        simp only [List.mem_cons, hi, false_or, List.idxOf_cons_ne _ (fun h => hi h.symm), Nat.succ_eq_add_one, Nat.add_assoc,
          Nat.add_comm 1]
    unfold State.giveSerials
    cases he : (s.slot j).entry with
    | none => exact hs s (fun _ _ => rfl) (by rw [he]; exact congrArg (PoolSlot.mk (s.slot j).gen) he)
    | some e => exact hs _ (fun k hk => by simp [State.putEntry, setSlot_slot, hk]) (by simp [State.putEntry, he])

end Sys2Proof.Machine
end

