-- ==== Sys2Proof/Laws/Requests.lean ====
section
/-! SUPPORT. What taking a request does: the head leaves, the command acts, the response joins; and how the argument bytes of each
form are read. -/

namespace Sys2Proof.Machine

/-- A request of command `c` at the head is taken (R153). -/
theorem takeRequest_of_asks {s : State} {p : PortId} {c : Cmd} {cmd tag : Byte} {args : List Byte}
    {act : State → List Byte → State × Reply} (h : s.asks p cmd tag args) (hc : Cmd.ofCode cmd = some c) :
    s.takeRequest p c act
      = ((act (s.popRequest p) args).1).pushResponse p tag (act (s.popRequest p) args).2 := by
  unfold State.takeRequest
  unfold State.asks at h
  cases hr : (s.port p).requests with
  | nil => simp [hr] at h
  | cons x xs =>
    rw [hr] at h
    simp only [List.head?_cons, Option.some.injEq] at h
    subst h
    simp [hc]

/-- With no such request at the head nothing changes (entry 3). -/
theorem takeRequest_of_not {s : State} {p : PortId} {c : Cmd} {act : State → List Byte → State × Reply}
    (h : ∀ cmd tag args, Cmd.ofCode cmd = some c → ¬ s.asks p cmd tag args) : s.takeRequest p c act = s := by
  unfold State.takeRequest
  cases hr : (s.port p).requests with
  | nil => rfl
  | cons x xs =>
    cases x with
    | damaged detail tag => rfl
    | request tag cmd args =>
      by_cases hc : Cmd.ofCode cmd = some c
      · exact absurd (by simp [State.asks, hr]) (h cmd tag args hc)
      · simp [hc]

/-- The one way a request command changes the state: it takes its request, or changes nothing. -/
theorem takeRequest_cases (s : State) (p : PortId) (c : Cmd) (act : State → List Byte → State × Reply) :
    s.takeRequest p c act = s
      ∨ ∃ cmd tag args, s.asks p cmd tag args ∧ Cmd.ofCode cmd = some c
          ∧ s.takeRequest p c act
            = ((act (s.popRequest p) args).1).pushResponse p tag (act (s.popRequest p) args).2 := by
  by_cases h : ∃ cmd tag args, Cmd.ofCode cmd = some c ∧ s.asks p cmd tag args
  · obtain ⟨cmd, tag, args, hc, ha⟩ := h
    exact .inr ⟨cmd, tag, args, ha, hc, takeRequest_of_asks ha hc⟩
  · exact .inl (takeRequest_of_not (fun cmd tag args hc ha => h ⟨cmd, tag, args, hc, ha⟩))

/-- A response that joins the queue from which its request was taken. -/
theorem popRequest_pushResponse (s : State) (p : PortId) (tag : Byte) (body : List Byte) :
    (s.popRequest p).pushResponse p tag ⟨body, none⟩ = s.answered p tag body := by
  simp [State.popRequest, State.pushResponse, State.answered, PortRec.answered]

@[simp] theorem popRequest_holdsClaim (s : State) (p q : PortId) (subj : Subject) :
    (s.popRequest p).holdsClaim q subj = s.holdsClaim q subj := rfl
@[simp] theorem popRequest_isCounting (s : State) (p : PortId) (a : AxisId) : (s.popRequest p).isCounting a = s.isCounting a := rfl

/-- Renewal by use is the renewal the statements speak of (R72). -/
theorem renewByUse_eq_used (s : State) (subj : Subject) : s.renewByUse subj = s.used subj := by
  unfold State.renewByUse State.used
  congr 1
  funext r
  by_cases h : r.lease = 0
  · simp [h, ClaimRec.used]
  · simp [h, ClaimRec.used, leaseExpiryTime, expiryAfter, Config.ticksPerMs]

/-- Telling ports and taking a request touch different fields of a port record. -/
theorem told_popRequest (s : State) (p : PortId) (who : PortId → Bool) (n : Notice) :
    (s.popRequest p).told who n = (s.told who n).popRequest p := by
  unfold State.popRequest
  simp only [State.told, State.modPort]
  apply ports_ext
  intro q
  by_cases h : q = p
  · subst h
    cases hw : who q <;> simp [State.port, hw, PortRec.accept, PortRec.noticeSelected]
  · simp [State.port, upd_get_ne _ h]

/-! ### Argument bytes -/

theorem parseAxis_byte (a : AxisId) : parseAxis [BitVec.ofNat 8 a.1] = some a := by
  revert a
  decide

/-- One argument byte that names an axis, or none of them. -/
theorem parseAxis_eq_some {args : List Byte} {a : AxisId} : parseAxis args = some a ↔ args = [BitVec.ofNat 8 a.1] := by
  constructor
  · intro h
    cases args with
    | nil => cases h
    | cons b rest =>
      cases rest with
      | cons _ _ => cases h
      | nil =>
        simp only [parseAxis, axisOfByte] at h
        split at h
        · simp only [Option.some.injEq] at h
          subst h
          simp
        · cases h
  · rintro rfl
    exact parseAxis_byte a

theorem parseAxis_eq_none {args : List Byte} : parseAxis args = none ↔ ∀ a : AxisId, args ≠ [BitVec.ofNat 8 a.1] := by
  constructor
  · intro h a e
    rw [e, parseAxis_byte] at h
    cases h
  · intro h
    cases e : parseAxis args with
    | none => rfl
    | some a => exact absurd (parseAxis_eq_some.mp e) (h a)

/-- The checks of SET_AXIS_CONFIG are those of a well-formed record (R27). -/
theorem configAccepted_eq (c : AxisConfig) : configAccepted c = c.wellFormed := by
  unfold configAccepted AxisConfig.wellFormed
  cases c.mode <;> cases c.policy <;> simp

/-- Step 2 of R66 admits exactly the well-formed leases. -/
theorem leaseAccepted_eq (ms : Nat) : leaseAccepted ms = leaseWellFormed ms := by
  simp [leaseAccepted, leaseWellFormed]

/-- Step 3 of R87 admits exactly the bookings in range. -/
theorem bookAccepted_iff (cpr : Nat) (b : BookArgs) : bookAccepted cpr b = true ↔ BookInRange cpr b := by
  unfold bookAccepted BookInRange
  by_cases hi : b.interval = 0 <;> cases h : b.action <;> simp [ActionKind.namesLine, hi] <;> grind

end Sys2Proof.Machine
end

