-- ==== Sys2Proof/Tests/Slice0.lean ====
section
/-! SUPPORT. Tests: the ill-formed terms each check refuses, numbers that spec/ gives in its tables, and for every statement with
hypotheses a concrete state and operands that meet them (`witness_<statement>`). -/

namespace Sys2Proof.Tests

open Sys2Proof Sys2Proof.Machine

-- Every test is an evaluation by the kernel: they run one after another, so that their threads do not add up.
set_option Elab.async false

/-! ### Helpers -/

/-- The state a command leaves. -/
def after (i : Instr) (s : State) : State :=
  match exec i s with
  | .next t => t
  | .fault _ => s
  | .refused _ => s

/-- The body of the newest response of port 0 after a command. -/
def reply (i : Instr) (s : State) : Option (List Byte) := ((after i s).port 0).responses.getLast?.map Response.body

/-- `s` with one request at the head of port 0's queue, its tag 9. -/
def asking (s : State) (cmd : Byte) (args : List Byte) : State :=
  s.modPort 0 (fun r => { r with requests := [.request 9#8 cmd args] })

/-- `s` with a subject held by `p` without a lease. -/
def holding (s : State) (p : PortId) (subj : Subject) : State := s.modClaim subj (fun _ => ⟨some p, 0, none, .low⟩)

/-- The reset state with axis 0 changed. -/
def onAxis (f : AxisRec → AxisRec) : State := State.reset.modAxis 0 f

/-- A record that differs from the reset one in mode, CPR and filter depth. -/
def cfgOf (m : Mode) (cpr : Nat) : AxisConfig := { configReset with mode := m, cpr := cpr, depth := 1 }

/-- Axis 0 counting in a mode with a CPR, claimed by port 0. -/
def counting (m : Mode) (cpr : Nat) (f : AxisRec → AxisRec) : State :=
  holding (onAxis (fun r => f { r with cfg := cfgOf m cpr, run := .counting })) 0 (.axis 0)

/-- An entry of port 0 on axis 0. -/
def entryAt (target : Position) (action : EntryAction) (periodic : Option Periodic) (st : EntryState) (serial : Nat) :
    Entry :=
  ⟨0, 0, target, .either, action, true, periodic, st, 0, serial⟩

/-- `s` with an entry of port 0 in slot 0. -/
def withEntryAt (s : State) (e : Entry) : State :=
  { s with pool := upd s.pool 0 ⟨7#8, some e⟩, booked := upd s.booked 0 1 }

/-- `s` with a snapshot in slot 0, read by the given ports. -/
def withSnap (s : State) (readers : PortMask) : State :=
  { s with
    snaps := upd s.snaps 0 (some ⟨1, 0#48, .host 0, readers, Vector.replicate 4 none⟩)
    nextCapture := 2
    holds := Vector.ofFn (fun p => if hasPort readers p then 1 else 0) }

/-- `s` with the first `n` slots of the pool booked by port 0. -/
def booking (s : State) (n : Nat) : State :=
  { s with
    pool := Vector.ofFn (fun i => ⟨0#8, if i.1 < n then some (entryAt ⟨0, 0⟩ .noticeOnly none .held i.1) else none⟩)
    booked := upd s.booked 0 n }

/-- Axes 0 and 1 counting, one raw level short of a step onto 0:5; two CAPTURE entries there on axis 0 and one on axis 1; CAP0
one raw level short of a rising edge, to which port 2 is subscribed. -/
def weavable : State :=
  let r : AxisRec := { AxisRec.reset with
    cfg := cfgOf .quad 400, run := .counting, prevCode := some ⟨.low, .low, .low⟩, pos := ⟨0, 4⟩, refState := .referenced }
  let e (a : AxisId) (n : Nat) : Entry := { entryAt ⟨0, 5⟩ (.capture 0#3) none .armed n with axis := a }
  { State.reset with
    axes := Vector.ofFn (fun a => if a.1 < 2 then r else AxisRec.reset)
    pool := Vector.ofFn (fun i => ⟨0#8, if i.1 < 2 then some (e 0 i.1) else if i.1 = 2 then some (e 1 0) else none⟩)
    booked := upd State.reset.booked 0 3
    cap := upd State.reset.cap 0 ⟨.low, 2⟩
    ports := Vector.ofFn (fun p => if p = 2 then { PortRec.reset with capSubs := upd PortRec.reset.capSubs 0 .rising } else PortRec.reset) }

/-! ### Well-formedness -/

theorem test_config_wellFormed :
    (cfgOf .quadIndex 5).wellFormed = true
      ∧ ({ cfgOf .hall3 1048576 with divider := 7, depth := 16, tolerance := 255, policy := .revOnly } : AxisConfig).wellFormed
          = true := by decide

/-- The reset record pairs CPR 4 with tolerance 2, which SET_AXIS_CONFIG does not accept (R25). -/
theorem test_config_reset_record_refused : configReset.wellFormed = false := by decide

theorem test_config_cpr_refused :
    ({ cfgOf .quad 1 with tolerance := 0 } : AxisConfig).wellFormed = false ∧ (cfgOf .quad 1048577).wellFormed = false := by
  decide

theorem test_config_divider_refused : ({ cfgOf .quad 400 with divider := 8 } : AxisConfig).wellFormed = false := by decide

theorem test_config_depth_refused :
    ({ cfgOf .quad 400 with depth := 0 } : AxisConfig).wellFormed = false
      ∧ ({ cfgOf .quad 400 with depth := 17 } : AxisConfig).wellFormed = false := by decide

theorem test_config_tolerance_refused : ({ cfgOf .quad 6 with tolerance := 3 } : AxisConfig).wellFormed = false := by decide

theorem test_config_policy_refused : ({ cfgOf .quadIndex 400 with policy := .fwdOnly } : AxisConfig).wellFormed = false := by
  decide

theorem test_position_wellFormed :
    Position.wellFormed 4 ⟨-8388608, 3⟩ = true ∧ Position.wellFormed 4 ⟨8388607, 0⟩ = true := by decide

theorem test_position_refused :
    Position.wellFormed 4 ⟨0, 4⟩ = false ∧ Position.wellFormed 4 ⟨8388608, 0⟩ = false
      ∧ Position.wellFormed 4 ⟨-8388609, 0⟩ = false := by decide

theorem test_lease :
    leaseWellFormed 0 = true ∧ leaseWellFormed 10 = true ∧ leaseWellFormed 60000 = true ∧ leaseWellFormed 9 = false
      ∧ leaseWellFormed 60001 = false := by decide

/-! ### Numbers of the spec -/

/-- The table gives no row bits, so no word spells a command (entry 2). -/
theorem test_no_word_spells_a_command : decodeTableWord 8 1 = none ∧ State.reset.withFetchWord 8 1 = State.reset := ⟨rfl, rfl⟩

/-- The two check frames of section 10.1. -/
theorem test_check_frames :
    requestFrame 0x01#8 0x01#8 [] = [0x02#8, 0x01#8, 0x01#8, 0xEF#8]
      ∧ crc8 [0x48#8, 0x03#8, 0x00#8, 0x00#8, 0x00#8] = 0xD2#8 := by decide +kernel

/-- The frame sent first after device reset (R174). -/
theorem test_first_frame :
    (match ((after (.csNFall 1) State.reset).port 1).exchange with
      | .active f false => f.bytes
      | _ => []) = [0x48#8, 0x03#8, 0x00#8, 0x00#8, 0x00#8, 0xD2#8] := by decide +kernel

/-- A notice that joins before the first fall: the frame is the one of R160 or the notice of R142, by a free value (entry 17). -/
theorem test_first_frame_with_a_notice_waiting :
    let r := (State.reset.raise 1 (.claimLost (.axis 0))).port 1
    r.disputed = true ∧ (r.queued.kind, r.queued.status) = (.notice, 0x58#8)
      ∧ (r.firstIdle.kind, r.firstIdle.frameNo) = (.idle, 0#8) ∧ (State.reset.port 1).disputed = false := by decide +kernel

/-- The NOP frame of section 10.1, sent with that first exchange, is accepted (R149). -/
theorem test_nop_frame_accepted :
    ((after (.csNRise 1 (bitsOfBytes [0x02#8, 0x01#8, 0x01#8, 0xEF#8])) (after (.csNFall 1) State.reset)).port 1).requests
      = [.request 0x01#8 0x01#8 []] := by decide +kernel

/-- The samples taken of Table 1.3. -/
theorem test_filter_table_1_3 :
    let f1 := filterRun 3 .high ⟨.low, 0⟩
    let f2 := filterRun 3 .low f1
    let f3 := filterRun 3 .high f2
    let f4 := filterRun 3 .high f3
    f1 = ⟨.low, 1⟩ ∧ f2 = ⟨.low, 0⟩ ∧ f3 = ⟨.low, 1⟩ ∧ f4 = ⟨.low, 2⟩ ∧ filterRun 3 .high f4 = ⟨.high, 0⟩ := by decide

/-- A record for the decoders. -/
def decoding (m : Mode) (prev : Option Code) (dir : LastDir) : AxisRec :=
  { AxisRec.reset with cfg := cfgOf m 400, prevCode := prev, lastDir := dir }

/-- Rows of Table 1.6. -/
theorem test_quadrature_table_1_6 :
    decodeSample (decoding .quadIndex none .none) ⟨.high, .high, .low⟩ = ⟨[], false, none⟩
      ∧ decodeSample (decoding .quadIndex (some ⟨.high, .high, .low⟩) .none) ⟨.low, .high, .low⟩ = ⟨[.forward], false, none⟩
      ∧ decodeSample (decoding .quadIndex (some ⟨.low, .low, .low⟩) .forward) ⟨.low, .low, .high⟩ = ⟨[], true, none⟩
      ∧ decodeSample (decoding .quadIndex (some ⟨.high, .low, .high⟩) .forward) ⟨.low, .low, .high⟩
          = ⟨[.reverse], false, none⟩
      ∧ decodeSample (decoding .quadIndex (some ⟨.low, .low, .high⟩) .reverse) ⟨.low, .low, .low⟩ = ⟨[], true, none⟩
      ∧ decodeSample (decoding .quadIndex (some ⟨.low, .high, .low⟩) .reverse) ⟨.high, .low, .low⟩
          = ⟨[], false, some .quadSkip⟩ := by decide

/-- Rows of Table 1.8. -/
theorem test_hall_table_1_8 :
    decodeSample (decoding .hall3 (some ⟨.high, .low, .low⟩) .none) ⟨.high, .high, .low⟩ = ⟨[.forward], false, none⟩
      ∧ decodeSample (decoding .hall3 (some ⟨.low, .high, .low⟩) .none) ⟨.low, .low, .high⟩
          = ⟨[.forward, .forward], false, some .hallSkip⟩
      ∧ decodeSample (decoding .hall3 (some ⟨.low, .low, .high⟩) .none) ⟨.high, .high, .low⟩ = ⟨[], false, some .hallSkip⟩
      ∧ decodeSample (decoding .hall3 (some ⟨.high, .high, .low⟩) .none) ⟨.high, .high, .high⟩ = ⟨[], false, some .hallCode⟩
      ∧ decodeSample (decoding .hall3 (some ⟨.high, .high, .high⟩) .none) ⟨.low, .high, .high⟩ = ⟨[], false, none⟩
      ∧ decodeSample (decoding .hall3 (some ⟨.low, .high, .high⟩) .none) ⟨.low, .high, .low⟩ = ⟨[.reverse], false, none⟩ := by
  decide

/-- The samples of Table 1.10, on an axis under FWD_ONLY at 5:100. -/
theorem test_ratchet_table_1_10 :
    let s := counting .quad 800 (fun r => { r with cfg := { r.cfg with policy := .fwdOnly }, pos := ⟨5, 100⟩ })
    let row (s : State) : Nat × Position := ((s.axis 0).debt, (s.axis 0).pos)
    let s1 := s.oneStep 0 1#48 .forward
    let s3 := (s1.oneStep 0 2#48 .reverse).oneStep 0 3#48 .reverse
    let s5 := (s3.oneStep 0 4#48 .forward).oneStep 0 5#48 .forward
    row s1 = (0, ⟨5, 101⟩) ∧ row s3 = (2, ⟨5, 101⟩) ∧ row s5 = (0, ⟨5, 101⟩)
      ∧ row (s5.oneStep 0 6#48 .forward) = (0, ⟨5, 102⟩) := by decide +kernel

/-- Table 3.4. -/
theorem test_drift_table_3_4 :
    driftOf 800 12 14 = 2 ∧ driftOf 800 12 7 = -5 ∧ driftOf 400 1 399 = -2 ∧ driftOf 400 398 2 = 4
      ∧ driftOf 800 12 412 = 400 ∧ driftOf 5 0 3 = -2 := by decide

/-- Rows of Table 6.1: repeats, then target. -/
theorem test_retarget_table_6_1 :
    let go (target : Position) (interval : Int) (n : Nat) : Option (Position × Option Nat) :=
      ((entryAt target .noticeOnly (some ⟨interval, n⟩) .armed 0).settled 800).map
        (fun e => (e.target, e.periodic.map Periodic.repeats))
    go ⟨2, 700⟩ 250 5 = some (⟨3, 150⟩, some 4) ∧ go ⟨2, 700⟩ 350 65535 = some (⟨3, 250⟩, some 65535)
      ∧ go ⟨0, 100⟩ (-900) 3 = some (⟨-1, 0⟩, some 2) ∧ go ⟨0, 100⟩ (-900) 1 = none ∧ go ⟨8388607, 700⟩ 200 9 = none := by
  decide +kernel

/-- Rows of Table 2.6: last interval, stall expiry. -/
theorem test_timing_table_2_6 :
    let r : AxisRec := { AxisRec.reset with cfg := { cfgOf .quad 800 with stallMs := 5 } }
    let r1 := r.rawStep .forward 1002000#48
    let r2 := r1.rawStep .forward 1004500#48
    let r3 := r2.rawStep .reverse 1020000#48
    (r1.lastInterval, r1.stall) = (none, some 1052000#48) ∧ (r2.lastInterval, r2.stall) = (some 2500, some 1054500#48)
      ∧ (r3.lastInterval, r3.motion) = (none, .reverse) := by decide +kernel

/-- Row E3 of Table 8.3: a damaged frame that finds no room is discarded and DROPPED is set. -/
theorem test_full_queues_table_8_3 :
    let r : PortRec := { PortRec.reset with
      responses := List.replicate 8 ⟨0x11#8, [0#8], none⟩
      exchange := .active ⟨0#8, 101#8, .response, 0x11#8, [0#8]⟩ false }
    let t := r.rise (bitsOfBytes [0x02#8, 0x01#8, 0x01#8, 0xEE#8])
    (t.requests.length, t.responses.length, t.dropped, t.frameNo) = (0, 8, true, 0#8) := by decide +kernel

/-! ### One command of each family -/

theorem test_sample_moves_axis :
    let s := counting .quad 400 (fun r => { r with prevCode := some ⟨.low, .low, .low⟩, pos := ⟨0, 399⟩ })
    ((after (.sampleTaken 0 ⟨.first, []⟩ .high .low .low) s).axis 0).pos = ⟨1, 0⟩ := by decide +kernel

theorem test_set_axis_config :
    let s := asking (holding State.reset 0 (.axis 0)) 0x10#8
      [0#8, 2#8, 0#8, 1#8, 0x90#8, 0#8, 4#8, 0#8, 0#8, 0#8, 3#8, 0#8, 0#8, 5#8]
    ((after (.setAxisConfig ⟨0, .first⟩) s).axis 0).cfg = ⟨.quadIndex, 400, 0, 4, .none, .any, .activeHigh, 3, .snap, 5⟩ := by
  decide +kernel

theorem test_index_establishes :
    let s := counting .quadIndex 400 (fun r => { r with refState := .seeking, refOffset := 12, refTurns := -3, epoch := 6#16 })
    let r := (s.indexEvent 0 0#48).axis 0
    (r.pos, r.refState, r.epoch) = (⟨-3, 12⟩, .referenced, 7#16) := by decide +kernel

theorem test_claim_granted :
    reply (.claim 0) (asking State.reset 0x20#8 [0x17#8, 0#8, 10#8, 1#8])
        = some [0x00#8, 0#8, 10#8, 0#8, 0#8, 0#8, 1#8, 0x86#8, 0xA0#8]
      ∧ ((after (.claim 0) (asking State.reset 0x20#8 [0x17#8, 0#8, 10#8, 1#8])).line 7).level = .high := by decide +kernel

theorem test_booked_entry_fires_a_pulse :
    let s := withEntryAt (counting .quad 400 (fun r => { r with pos := ⟨0, 5⟩, refState := .referenced }))
      (entryAt ⟨0, 5⟩ (.pulse 3 2) none .armed 0)
    let t := s.offer 0 .forward 100#48
    (t.line 3).level = .high ∧ (t.line 3).pulseEnd = some 120#48 ∧ (t.slot 0).entry = none ∧ (t.slot 0).gen = 8#8
      ∧ (t.port 0).notices = [⟨.compareFired 0 1 ⟨0, 7#8⟩ 100#48 true, none⟩] := by decide +kernel

/-- The number, the cause and the axis 0 position of every snapshot held, in slot order. -/
def shots (s : State) : List (Nat × Cause × Option Position) :=
  s.snaps.toList.filterMap (fun x => x.map (fun x => (x.number, x.cause, (x.parts.get 0).map AxisPart.pos)))

/-- Between the two CAPTURE firings of one offer an edge takes its capture: it gets the number between theirs, and shows the
axis before its sample (R126, R129). -/
theorem test_edge_between_two_firings :
    let t := after (.sampleTaken 0 ⟨.first, [.go 0 [], .go 0 [], .edge 0 .high []]⟩ .high .low .low) weavable
    shots t = [(1, .compare 0 ⟨0, 0#8⟩, some ⟨0, 5⟩), (2, .edge 0 true, some ⟨0, 4⟩), (3, .compare 0 ⟨1, 0#8⟩, some ⟨0, 5⟩)] := by
  decide +kernel

/-- A firing of another axis between them takes the number between theirs, too (R129). -/
theorem test_other_axis_between_two_firings :
    let t := after (.sampleTaken 0
      ⟨.first, [.go 0 [], .go 0 [], .start 1 .high .low .low, .go 1 [], .go 1 [0]]⟩ .high .low .low) weavable
    shots t = [(1, .compare 0 ⟨0, 0#8⟩, some ⟨0, 5⟩), (2, .compare 0 ⟨2, 0#8⟩, some ⟨0, 5⟩),
      (3, .compare 0 ⟨1, 0#8⟩, some ⟨0, 5⟩)] := by decide +kernel

/-- An edge while the samples of axes 0 and 1 are under way shows axis 0 before its sample and axis 1 after its own (R126). -/
theorem test_edge_across_two_samples :
    let t := after (.sampleTaken 0 ⟨.first, [.start 1 .high .low .low, .edge 0 .high [1]]⟩ .high .low .low) weavable
    (t.snaps.get 0).map (fun x => [0, 1].map (fun a => (x.parts.get a).map AxisPart.pos)) = some [some ⟨0, 4⟩, some ⟨0, 5⟩] := by
  decide +kernel

/-- A divider changed from 0 to 3 in period 2 leaves that period a sample instant, and periods 3 and 4 none (R1). -/
theorem test_new_divider_from_next_period :
    let s := { asking (holding State.reset 0 (.axis 0)) 0x10#8
      [0#8, 0#8, 0#8, 1#8, 0x90#8, 3#8, 4#8, 0#8, 0#8, 0#8, 2#8, 0#8, 0#8, 0#8] with time := 1#48 }
    let t := after (.setAxisConfig ⟨0, .first⟩) s
    let u := after (.setAxisConfig ⟨0, .second⟩) s
    (t.axis 0).cfg.divider = 3 ∧ t.takesSample 0 .first = true ∧ t.takesSample 0 .second = false
      ∧ u.takesSample 0 .second = true ∧ (after .deviceTimeTick u).takesSample 0 .first = false := by decide +kernel

/-- A queued MOTION_CHANGED whose position is unsubscribed takes the next one (R163). -/
theorem test_unsubscribed_notice_still_merges :
    let s := State.reset.modPort 0 (fun r => { r with notices := [⟨.motionChanged 0 .forward, none⟩] })
    let t := s.raiseSubscribed (subMotion 0) (.motionChanged 0 .stopped)
    (t.port 0).notices = [⟨.motionChanged 0 .stopped, none⟩] ∧ (t.port 1).notices = [] := by decide +kernel

theorem test_snap_fills_a_slot :
    reply (.snap 0) (asking State.reset 0x40#8 [6#8])
      = some [0x00#8, 0#8, 0#8, 0#8, 0#8, 0#8, 1#8, 0#8, 0#8, 0#8, 0#8, 0#8, 0#8] := by decide +kernel

theorem test_unknown_command : reply (.unknownCommand 0) (asking State.reset 0x07#8 []) = some [0x02#8] := by decide +kernel

theorem test_tick_counts : (after .deviceTimeTick State.reset).time = 1#48 := by decide +kernel

/-! ### Witnesses: queue, time, inputs -/

/-- What holds of every entry of the pool, decided slot by slot. -/
theorem of_slots {s : State} {P : SlotId → Entry → Bool} (h : ∀ i, (s.slot i).entry.all (P i) = true) :
    ∀ i e, (s.slot i).entry = some e → P i e = true := by
  intro i e he
  have := h i
  rw [he] at this
  exact this

/-- What holds of every snapshot of the table, decided slot by slot. -/
theorem of_snaps {s : State} {P : Fin 16 → Snapshot → Bool} (h : ∀ i, (s.snaps.get i).all (P i) = true) :
    ∀ i x, s.snaps.get i = some x → P i x = true := by
  intro i x hx
  have := h i
  rw [hx] at this
  exact this

/-- A claim table whose records are all legal and whose axis records keep LOW. -/
theorem claimLaw_of {s : State} (ha : ∀ a : AxisId, (s.claim (.axis a)).idle = .low)
    (h : ∀ k : Fin 12, (s.claims.get k).Legal) : s.ClaimLaw := ⟨fun subj => h (subjectIndex subj), ha⟩

theorem witness_StepTakesFrontCommand : State.reset.pending = [] := rfl

/-- A lease, a stall timer and a pulse are due at time 5 on a state that meets ClaimLaw; at reset no timer is due. -/
theorem witness_TickTakesDueTimersThenAdvances :
    let s : State := { (State.reset.modAxis 3 (fun r => { r with stall := some 5#48 })).modLine 7 (fun r =>
        { r with pulseEnd := some 5#48 }) with
      time := 5#48
      claims := upd State.reset.claims 11 ⟨some 2, 10, some 5#48, .high⟩ }
    s.ClaimLaw ∧ s.expiryOf (.stall 3) = some s.time ∧ s.expiryOf (.pulse 7) = some s.time
      ∧ s.expiryOf (.lease (.line 7)) = some s.time
      ∧ State.reset.ClaimLaw ∧ ∀ x : TimerId, State.reset.expiryOf x ≠ some State.reset.time := by
  refine ⟨claimLaw_of (by decide +kernel) ?_, rfl, rfl, rfl, claimLaw_of (by decide +kernel) ?_, ?_⟩
  · unfold ClaimRec.Legal
    decide +kernel
  · unfold ClaimRec.Legal
    decide +kernel
  · intro x
    rcases x with a | subj | l
    · revert a
      decide +kernel
    · rcases subj with a | l
      · revert a
        decide +kernel
      · revert l
        decide +kernel
    · revert l
      decide +kernel

/-- At reset the first half of a tick is a sample instant; with divider 1 the second half is none, and a closed window takes no
sample. -/
theorem witness_EverySampleRunsTheThreeFilters :
    State.reset.SampleDue 0 .first ∧ (State.reset.axis 0).run = .disabled
      ∧ ((counting .quad 400 id).SampleDue 0 .second ∧ ((counting .quad 400 id).axis 0).run = .counting)
      ∧ ¬ (onAxis (fun r => { r with dividers := ⟨0, 1⟩ })).SampleDue 0 .second
      ∧ ¬ (onAxis (fun r => { r with cfg := { r.cfg with window := .qw1 } })).SampleDue 0 .first := by
  unfold State.SampleDue
  decide +kernel

theorem witness_BaselineSampleOnlyStoresItsCode :
    let s := counting .hall3 24 id
    let u := counting .quad 400 (fun r => { r with prevCode := some ⟨.low, .low, .low⟩ })
    (s.SampleDue 0 .first ∧ (s.axis 0).run = .counting ∧ (s.axis 0).cfg.mode ≠ .off
      ∧ FilterStep 1 .high ⟨.low, 0⟩ ⟨.high, 0⟩ ∧ FilterStep 1 .low ⟨.low, 0⟩ ⟨.low, 0⟩ ∧ (s.axis 0).prevCode = none
      ∧ ¬ (Level.high = .low ∧ Level.low = .low))
    ∧ (u.SampleDue 0 .first ∧ (u.axis 0).run = .counting ∧ (u.axis 0).cfg.mode ≠ .off
      ∧ (u.axis 0).prevCode = some ⟨.low, .low, .low⟩) := by
  unfold State.SampleDue FilterStep
  decide +kernel

theorem witness_QuadratureStepsAndIndexEvents :
    let r := decoding .quad (some ⟨.low, .high, .low⟩) .none
    let u := decoding .quadIndex (some ⟨.low, .high, .high⟩) .reverse
    r.cfg.mode = .quad ∧ r.prevCode = some ⟨(quadPhase 3).1, (quadPhase 3).2, .low⟩ ∧ (3 : Fin 4) ≠ 0
      ∧ u.cfg.mode = .quadIndex ∧ u.prevCode = some ⟨(quadPhase 3).1, (quadPhase 3).2, .high⟩
      ∧ ((3 : Fin 4) ≠ 3 ∨ Level.high ≠ .low) := by decide

theorem witness_HallAndStepDirDecoding :
    (decoding .hall3 (some (hallSector 5)) .none).cfg.mode = .hall3
      ∧ (decoding .hall3 (some (hallSector 5)) .none).prevCode = some (hallSector 5) ∧ (5 : Fin 6) ≠ 0
      ∧ (decoding .hall3 none .none).prevCode = none
      ∧ (decoding .hall3 (some ⟨.high, .high, .high⟩) .none).prevCode = some ⟨.high, .high, .high⟩
      ∧ (decoding .stepDir (some ⟨.low, .high, .low⟩) .none).cfg.mode = .stepDir
      ∧ (decoding .stepDir (some ⟨.low, .high, .low⟩) .none).prevCode = some ⟨.low, .high, .low⟩ := by decide

/-- A forbidden step is not applied; one at debt 65,535 overflows. -/
theorem witness_RatchetFollowsItsTable :
    (ratchet .revOnly .forward 65534).applied = false ∧ (ratchet .fwdOnly .reverse 65535).overflow = true
      ∧ (0 < 65535 ∧ 65534 < 65535) := by decide

/-- One step forward and one in reverse at debt 0; an index mark, a missed phase, and a HALL3 jump of two steps. -/
theorem witness_SampleRunsTheFourStages :
    let s := counting .quad 400 (fun r => { r with prevCode := some ⟨.low, .low, .low⟩, pos := ⟨8388607, 398⟩ })
    let u := counting .stepDir 2 (fun r => { r with prevCode := some ⟨.low, .low, .low⟩, pos := ⟨-8388608, 1⟩ })
    (s.SampleDue 0 .first ∧ (s.axis 0).run = .counting ∧ (s.axis 0).cfg.mode ≠ .off ∧ (s.axis 0).cfg.mode ≠ .quadIndex
      ∧ (s.axis 0).cfg.policy = .any ∧ (s.axis 0).debt = 0 ∧ FilterStep 1 .high ⟨.low, 0⟩ ⟨.high, 0⟩ ∧ FilterStep 1 .low ⟨.low, 0⟩ ⟨.low, 0⟩
      ∧ decodeSample (s.axis 0) ⟨.high, .low, .low⟩ = ⟨[.forward], false, none⟩
      ∧ stepWraps (s.axis 0).cfg.cpr .forward (s.axis 0).pos = false)
    ∧ (decodeSample (u.axis 0) ⟨.high, .low, .low⟩ = ⟨[.reverse], false, none⟩
      ∧ stepWraps (u.axis 0).cfg.cpr .reverse (u.axis 0).pos = false)
    ∧ (decodeSample (decoding .quadIndex (some ⟨.low, .low, .low⟩) .none) ⟨.high, .low, .high⟩ = ⟨[.forward], true, none⟩
      ∧ decodeSample (decoding .hall3 (some (hallSector 0)) .none) (hallSector 2) = ⟨[.forward, .forward], false, some .hallSkip⟩)
    ∧ ∀ i e, (s.slot i).entry = some e → decide (e.axis = 0 → e.state = .held) = true := by
  refine ⟨?_, by decide +kernel, by decide, of_slots (by decide +kernel)⟩
  unfold State.SampleDue FilterStep
  decide +kernel

/-- Two samples of one period that are due and begin, an edge that is taken between two firings, and a SNAP. -/
theorem witness_SampleIsTakenInParts :
    weavable.SampleDue 0 .first ∧ (weavable.beginSample 0 .high .low .low).2.isSome = true
      ∧ (2 : Nat) = [Between.go 0 [], .go 0 []].length ∧ (1 : AxisId) ≠ 0 ∧ weavable.SampleDue 1 .first
      ∧ (weavable.beginSample 1 .high .low .low).2.isSome = true
      ∧ exec (.captureEdge 0 .high) weavable = .next (weavable.runCap 0 .high)
      ∧ (weavable.runCap 0 .high).nextCapture = weavable.nextCapture + 1
      ∧ (weavable.runCap 0 .high).nextCapture ≠ weavable.nextCapture
      ∧ (∀ x ∈ [Between.go 0 [], .go 3 [0]], ∃ b late, x = .go b late) := by
  refine ⟨?_, by decide +kernel, rfl, by decide, ?_, by decide +kernel, rfl, by decide +kernel, by decide +kernel, ?_⟩
  · unfold State.SampleDue
    decide +kernel
  · unfold State.SampleDue
    decide +kernel
  · intro x h
    simp only [List.mem_cons, List.not_mem_nil, or_false] at h
    rcases h with rfl | rfl
    · exact ⟨_, _, rfl⟩
    · exact ⟨_, _, rfl⟩

/-- Both ends of the turns range, and a step inside it in each direction. -/
theorem witness_StepsMovePositionByOneCount :
    Position.wellFormed 2 ⟨8388607, 2 - 1⟩ = true ∧ Position.wellFormed 2 ⟨-8388608, 0⟩ = true
      ∧ Position.wellFormed 1048576 ⟨0, 1048574⟩ = true ∧ 1048574 + 1 < 1048576 ∧ 0 < 1048574
      ∧ ¬ ((⟨0, 1048574⟩ : Position) = ⟨8388607, 1048576 - 1⟩) := by decide

/-! ### Witnesses: axis commands and referencing -/

/-- The bytes of a configuration record: QUAD_INDEX with the given CPR bytes. -/
def cfgArgs (hi lo : Byte) : List Byte := [0#8, 2#8, 0#8, hi, lo, 0#8, 1#8, 0#8, 0#8, 0#8, 2#8, 0#8, 0#8, 0#8]

/-- Each step of the checks, in turn: the form, the claim, the state, the values. -/
theorem witness_AxisCommandsAreCheckedInOrder :
    let s := counting .quadIndex 400 id
    let u := holding State.reset 0 (.axis 0)
    ((asking s 0x11#8 [4#8]).asks 0 0x11#8 9#8 [4#8] ∧ ∀ a : AxisId, [4#8] ≠ [BitVec.ofNat 8 a.1])
    ∧ ((asking State.reset 0x1A#8 [3#8]).asks 0 0x1A#8 9#8 [BitVec.ofNat 8 (3 : AxisId).1]
      ∧ (State.reset.claim (.axis 3)).holder ≠ some 0)
    ∧ ((s.claim (.axis 0)).holder = some 0 ∧ (s.axis 0).run = .counting ∧ (u.claim (.axis 0)).holder = some 0
      ∧ (u.axis 0).run ≠ .counting ∧ (u.axis 0).cfg.mode = .off ∧ (u.axis 0).cfg.mode ≠ .quadIndex)
    ∧ (parseConfig (cfgArgs 0#8 1#8) ≠ none ∧ parseConfig (0#8 :: cfgArgs 0#8 1#8) = none
      ∧ ((parseConfig (cfgArgs 0#8 1#8)).map (fun x => x.2.wellFormed)) = some false
      ∧ ((parseConfig (cfgArgs 0#8 1#8)).map Prod.fst) = some 0)
    ∧ (parseArm [0#8, 0#8, 1#8, 0x90#8, 0#8, 0#8, 0#8] = some (0, 400, 0) ∧ parseArm [0#8] = none)
    ∧ (parseSetReference [0#8, 0#8, 0#8, 0#8, 0#8, 1#8, 0x90#8] = some (0, ⟨0, 400⟩) ∧ parseSetReference [4#8] = none) := by
  decide +kernel

/-- Two records accepted on a DISABLED axis that has been referenced: one keeps mode and CPR, one changes the CPR. -/
theorem witness_SetAxisConfigReplacesTheRecord :
    let s := holding (onAxis (fun r => { r with cfg := { cfgOf .quadIndex 400 with policy := .any }, refState := .lost })) 0
      (.axis 0)
    ∀ x ∈ [(cfgArgs 1#8 0x90#8, cfgOf .quadIndex 400), (cfgArgs 0#8 5#8, cfgOf .quadIndex 5)],
      (asking s 0x10#8 x.1).asks 0 0x10#8 9#8 x.1 ∧ parseConfig x.1 = some (0, x.2)
        ∧ (s.claim (.axis 0)).holder = some 0 ∧ (s.axis 0).run = .disabled ∧ x.2.wellFormed = true := by decide +kernel

theorem witness_StartAndStopOfAnAxis :
    let s := asking (holding (onAxis (fun r => { r with cfg := cfgOf .quad 2, motion := .reverse })) 0 (.axis 0)) 0x11#8 [0#8]
    let u := asking (counting .quad 2 (fun r => { r with refState := .suspect })) 0x12#8 [0#8]
    s.asks 0 0x11#8 9#8 [BitVec.ofNat 8 (0 : AxisId).1] ∧ (s.claim (.axis 0)).holder = some 0 ∧ (s.axis 0).run = .disabled
      ∧ (s.axis 0).cfg.mode ≠ .off
      ∧ u.asks 0 0x12#8 9#8 [BitVec.ofNat 8 (0 : AxisId).1] ∧ (u.claim (.axis 0)).holder = some 0
      ∧ (u.axis 0).run = .counting := by decide +kernel

theorem witness_ClearFaultsEmptiesTheRecord :
    let s := asking (holding State.reset 0 (.axis 3)) 0x14#8 [3#8]
    s.asks 0 0x14#8 9#8 [BitVec.ofNat 8 (3 : AxisId).1] ∧ (s.claim (.axis 3)).holder = some 0
      ∧ (asking State.reset 0x14#8 [3#8]).asks 0 0x14#8 9#8 [BitVec.ofNat 8 (3 : AxisId).1]
      ∧ ((asking State.reset 0x14#8 [3#8]).claim (.axis 3)).holder ≠ some 0 := by decide +kernel

theorem witness_ReferenceCommandsTakeEffect :
    let s := counting .quadIndex 400 id
    let args := [0#8, 0#8, 1#8, 0x8F#8, 0x80#8, 0#8, 0#8]
    let place := [0#8, 0x7F#8, 0xFF#8, 0xFF#8, 0#8, 0#8, 1#8]
    let u := asking (counting .quad 2 (fun r => { r with epoch := 0xFFFF#16 })) 0x19#8 place
    (s.claim (.axis 0)).holder = some 0 ∧ (s.axis 0).run = .counting ∧ (asking s 0x18#8 args).asks 0 0x18#8 9#8 args
      ∧ parseArm args = some (0, 399, -8388608) ∧ (s.axis 0).cfg.mode = .quadIndex ∧ 399 < (s.axis 0).cfg.cpr
      ∧ (asking s 0x1A#8 [0#8]).asks 0 0x1A#8 9#8 [BitVec.ofNat 8 (0 : AxisId).1]
      ∧ u.asks 0 0x19#8 9#8 place ∧ parseSetReference place = some (0, ⟨8388607, 1⟩) ∧ (u.claim (.axis 0)).holder = some 0
      ∧ (u.axis 0).run = .counting ∧ 1 < (u.axis 0).cfg.cpr := by decide +kernel

theorem witness_StallsAndPulsesEndAtTheirTick :
    let s := onAxis (fun r => { r with stall := some 0#48, motion := .forward })
    let u := State.reset.modLine 7 (fun r => { r with pulseEnd := some 0#48 })
    (s.axis 0).stall = some s.time ∧ (State.reset.axis 0).stall ≠ some State.reset.time
      ∧ (u.line 7).pulseEnd = some u.time ∧ (State.reset.line 7).pulseEnd ≠ some State.reset.time := by decide +kernel

/-- CPR 1 for the drift alone; a drift at the tolerance and one beyond it, in both correction modes; a correction that fits and one that would leave the
turns range; a state that seeks and one that has no reference. -/
theorem witness_IndexEventByReferenceState :
    let s (st : RefState) (c : Correction) (p : Position) : State := onAxis (fun r =>
      { r with cfg := { cfgOf .quadIndex 400 with correction := c }, pos := p, refState := st, refOffset := 399 })
    let d (s : State) : Int := driftOf (s.axis 0).cfg.cpr (s.axis 0).refOffset (s.axis 0).pos.count
    let t : State := s .suspect .snap ⟨0, 1⟩
    let u : State := s .referenced .check ⟨0, 1⟩
    ((t.axis 0).refState = .suspect ∧ (d t).natAbs ≤ (t.axis 0).cfg.tolerance ∧ (t.axis 0).cfg.correction = .snap
      ∧ Position.wellFormed 400 ⟨-1, 399⟩ = true ∧ (-1 : Int) * 400 + 399 = 0 * 400 + 1 - d t)
    ∧ ((u.axis 0).refState = .referenced ∧ (d u).natAbs ≤ (u.axis 0).cfg.tolerance ∧ (u.axis 0).cfg.correction = .check)
    ∧ (t.axis 0).cfg.tolerance < (d (s .referenced .snap ⟨0, 2⟩)).natAbs
    ∧ ((s .seeking .snap ⟨0, 2⟩).axis 0).refState = .seeking ∧ ((s .lost .snap ⟨0, 2⟩).axis 0).refState = .lost
    ∧ ((State.reset.axis 0).refState = .unreferenced ∧ 0 < 1)
    ∧ ¬ ∃ q : Position, Position.wellFormed 400 q = true
        ∧ q.turns * 400 + q.count = (-8388608 : Int) * 400 + (1 : Nat) - 2 := by
  refine ⟨by decide +kernel, by decide +kernel, by decide +kernel, by decide +kernel, by decide +kernel, by decide +kernel, ?_⟩
  rintro ⟨q, h, e⟩
  rw [position_wellFormed_iff] at h
  omega

/-- A fault of each class, in a state of each reference state that it lowers. -/
theorem witness_FaultIsEnteredThenActsThenTells :
    (∀ k ∈ [FaultKind.quadSkip, .hallSkip, .ratchetOverflow], k = .quadSkip ∨ k = .hallSkip ∨ k = .ratchetOverflow)
      ∧ (∀ k ∈ [FaultKind.hallCode, .turnRange], k = .hallCode ∨ k = .turnRange)
      ∧ ((onAxis (fun r => { r with refState := .suspect })).axis 0).refState = .suspect := by decide +kernel

/-- One count beyond CPR plus tolerance, and exactly at it. -/
theorem witness_MissedIndexCheck :
    let r (n : Int) : AxisRec :=
      { AxisRec.reset with cfg := cfgOf .quadIndex 400, refState := .referenced, sinceIndex := n }
    (r 402).cfg.mode = .quadIndex ∧ (r 402).cfg.cpr + (r 402).cfg.tolerance < (min 2147483647 ((402 : Int) + 1)).natAbs
      ∧ ¬ (r 401).cfg.cpr + (r 401).cfg.tolerance < (min 2147483647 ((401 : Int) + 1)).natAbs := by decide +kernel

/-! ### Witnesses: claims and lines -/

theorem witness_ClaimIsGrantedRenewedOrRefused :
    let args := [0x17#8, 0xEA#8, 0x60#8, 1#8]
    let other := [0x10#8, 0#8, 10#8, 0#8]
    (asking State.reset 0x20#8 args).asks 0 0x20#8 9#8 args ∧ parseClaim args = some (.line 7, 60000, .high)
      ∧ leaseWellFormed 60000 = true ∧ (State.reset.claim (.line 7)).holder = none
      ∧ ((holding State.reset 0 (.line 7)).claim (.line 7)).holder = some 0
      ∧ parseClaim [3#8, 0#8, 0#8] = some (.axis 3, 0, .low) ∧ leaseWellFormed 0 = true
      ∧ parseClaim [0x04#8, 0#8, 10#8] = none ∧ parseClaim [0x10#8, 0#8, 9#8, 0#8] = some (.line 0, 9, .low)
      ∧ leaseWellFormed 9 = false ∧ (asking (holding State.reset 2 (.line 0)) 0x20#8 other).asks 0 0x20#8 9#8 other
      ∧ parseClaim other = some (.line 0, 10, .low) ∧ leaseWellFormed 10 = true
      ∧ ((holding State.reset 2 (.line 0)).claim (.line 0)).holder = some 2 ∧ (2 : PortId) ≠ 0 := by decide +kernel

theorem witness_ReleaseFreesTheSubject :
    (asking State.reset 0x21#8 [0x17#8]).asks 0 0x21#8 9#8 [0x17#8] ∧ parseSubject [0x18#8] = none
      ∧ parseSubject [0x17#8] = some (.line 7) ∧ (State.reset.claim (.line 7)).holder ≠ some 0
      ∧ ((holding State.reset 0 (.line 7)).claim (.line 7)).holder = some 0
      ∧ parseSubject [0#8] = some (.axis 0) ∧ ((holding State.reset 0 (.axis 0)).claim (.axis 0)).holder = some 0 := by
  decide +kernel

theorem witness_LeaseExpiryFreesAndTells :
    let s (subj : Subject) := State.reset.modClaim subj (fun _ => ⟨some 1, 10, some 0#48, .low⟩)
    (State.reset.claim (.axis 0)).expiry ≠ some State.reset.time
      ∧ ((s (.axis 0)).claim (.axis 0)).expiry = some (s (.axis 0)).time ∧ ((s (.axis 0)).claim (.axis 0)).holder = some 1
      ∧ ((s (.line 7)).claim (.line 7)).expiry = some (s (.line 7)).time
      ∧ ((s (.line 7)).claim (.line 7)).holder = some 1 := by decide +kernel

theorem witness_DriveLineActsByTable63 :
    (asking State.reset 0x38#8 [7#8, 2#8, 0#8, 1#8]).asks 0 0x38#8 9#8 [7#8, 2#8, 0#8, 1#8]
      ∧ parseDrive [8#8, 0#8, 0#8, 0#8] = none ∧ parseDrive [7#8, 2#8, 0#8, 1#8] = some (7, .pulse, 1)
      ∧ (State.reset.claim (.line 7)).holder ≠ some 0 ∧ ((holding State.reset 0 (.line 7)).claim (.line 7)).holder = some 0
      ∧ parseDrive [7#8, 2#8, 0#8, 0#8] = some (7, .pulse, 0) ∧ parseDrive [7#8, 0#8, 0#8, 1#8] = some (7, .active, 1)
      ∧ parseDrive [7#8, 1#8, 0#8, 0#8] = some (7, .idle, 0) := by decide +kernel

/-! ### Witnesses: the compare schedule and firing -/

/-- The bytes of a BOOK on axis 0 at 0:0. -/
def bookBytes (act line width share iv rep : Byte) : List Byte :=
  [0#8, 0#8, 0#8, 0#8, 0#8, 0#8, 0#8, 2#8, act, line, 0#8, width, share, 1#8, 0#8, 0#8, 0#8, iv, 0#8, rep]

/-- The last place of the reserve (h_p 7), the last shared place (h_p 47), and a pulse on a line the port holds. -/
theorem witness_BookPlacesTheEntry :
    let args := bookBytes 0#8 0#8 0#8 0#8 0#8 0#8
    let pulse := bookBytes 1#8 7#8 1#8 0#8 1#8 1#8
    let b : BookArgs := ⟨0, ⟨0, 0⟩, .either, .noticeOnly, 0, 0, 0#3, true, 0, 0⟩
    let c : BookArgs := ⟨0, ⟨0, 0⟩, .either, .pulse, 7, 1, 0#3, true, 1, 1⟩
    (asking State.reset 0x30#8 args).asks 0 0x30#8 9#8 args ∧ parseBook args = some b ∧ ¬ BookNamesLine b
      ∧ BookInRange (State.reset.axis 0).cfg.cpr b ∧ (booking State.reset 7).PoolLaw ∧ (booking State.reset 7).booked.get 0 < 8
      ∧ (booking State.reset 47).PoolLaw ∧ (booking State.reset 47).sharedPlaces < 40
      ∧ parseBook pulse = some c ∧ BookNamesLine c ∧ BookInRange (State.reset.axis 0).cfg.cpr c
      ∧ ((holding State.reset 0 (.line 7)).claim (.line 7)).holder = some 0 := by
  unfold BookNamesLine BookInRange State.PoolLaw
  decide +kernel

theorem witness_BookIsCheckedInOrder :
    let pulse := bookBytes 1#8 7#8 0#8 0#8 0#8 0#8
    let c : BookArgs := ⟨0, ⟨0, 0⟩, .either, .pulse, 7, 0, 0#3, true, 0, 0⟩
    let args := bookBytes 0#8 0#8 0#8 0#8 0#8 0#8
    let b : BookArgs := ⟨0, ⟨0, 0⟩, .either, .noticeOnly, 0, 0, 0#3, true, 0, 0⟩
    parseBook [] = none ∧ (asking State.reset 0x30#8 pulse).asks 0 0x30#8 9#8 pulse ∧ parseBook pulse = some c
      ∧ BookNamesLine c ∧ (State.reset.claim (.line 7)).holder ≠ some 0
      ∧ ((holding State.reset 0 (.line 7)).claim (.line 7)).holder = some 0
      ∧ ¬ BookInRange (State.reset.axis 0).cfg.cpr c
      ∧ parseBook args = some b ∧ ¬ BookNamesLine b ∧ BookInRange (State.reset.axis 0).cfg.cpr b
      ∧ 8 ≤ (booking State.reset 48).booked.get 0 ∧ 40 ≤ (booking State.reset 48).sharedPlaces := by
  unfold BookNamesLine BookInRange
  decide +kernel

/-- A handle out of range, a stale one, a FREE slot, an entry of another port, and an entry of the port. -/
theorem witness_HandlesResolveAndCancelsFree :
    let s := withEntryAt State.reset (entryAt ⟨0, 0⟩ .noticeOnly none .held 0)
    let other := withEntryAt State.reset { entryAt ⟨0, 0⟩ .noticeOnly none .held 0 with owner := 1 }
    (∀ (i : SlotId), ¬ (64#8 = BitVec.ofNat 8 i.1))
      ∧ (asking s 0x31#8 [0#8, 7#8]).asks 0 0x31#8 9#8 [BitVec.ofNat 8 (0 : SlotId).1, 7#8]
      ∧ (asking s 0x33#8 [63#8, 0#8]).asks 0 0x33#8 9#8 [BitVec.ofNat 8 (63 : SlotId).1, 0#8]
      ∧ (s.slot 0).gen = 7#8 ∧ (s.slot 0).gen ≠ 8#8 ∧ (s.slot 0).entry = some (entryAt ⟨0, 0⟩ .noticeOnly none .held 0)
      ∧ (s.slot 63).entry = none ∧ (s.slot 63).gen = 0#8 ∧ (other.slot 0).entry.map Entry.owner = some 1
      ∧ (asking s 0x32#8 [3#8]).asks 0 0x32#8 9#8 [BitVec.ofNat 8 (3 : AxisId).1]
      ∧ ∀ a : AxisId, [4#8] ≠ [BitVec.ofNat 8 a.1] := by decide +kernel

theorem witness_AxisListIsOrderedAndListed :
    (asking State.reset 0x34#8 [3#8, 255#8]).asks 0 0x34#8 9#8 [BitVec.ofNat 8 (3 : AxisId).1, 255#8]
      ∧ ∀ a : AxisId, ¬ (4#8 = BitVec.ofNat 8 a.1) := by decide +kernel

/-- An entry of another axis than the one renumbered. -/
theorem witness_RenumberingKeepsTheOrder :
    ((booking State.reset 2).slot 1).entry = some (entryAt ⟨0, 0⟩ .noticeOnly none .held 1)
      ∧ (entryAt ⟨0, 0⟩ .noticeOnly none .held 1).axis ≠ 3 := by decide +kernel

/-- An entry that the offer fires, at the last serial. -/
theorem witness_AppliedStepIsOfferedWhereItLands :
    let s := withEntryAt (counting .quad 400 (fun r => { r with pos := ⟨1, 5⟩ }))
      (entryAt ⟨1, 5⟩ .noticeOnly none .armed 4294967295)
    s.matching 0 .reverse = [0] ∧ (ratchet .any .reverse 0).applied = true ∧ (ratchet .fwdOnly .reverse 0).applied = false := by
  decide +kernel

/-- A one-shot entry, one with repeats 1, one whose target would leave the range, and one that goes on with repeats 2. -/
theorem witness_FiringActsCountsTellsAndSettles :
    let s (e : Entry) := withEntryAt (counting .quad 400 id) e
    let one := entryAt ⟨0, 5⟩ (.toggle 7) none .armed 0
    let last := entryAt ⟨0, 5⟩ (.capture 6#3) (some ⟨10, 1⟩) .armed 0
    let out := entryAt ⟨8388607, 399⟩ .noticeOnly (some ⟨1, 65535⟩) .armed 0
    let on := entryAt ⟨0, 5⟩ (.pulse 0 65535) (some ⟨-10, 2⟩) .armed 0
    (∀ e ∈ [one, last, out, on], ((s e).slot 0).entry = some e ∧ e.axis = 0)
      ∧ one.periodic = none ∧ (Position.wellFormed 400 ⟨-1, 395⟩ = true ∧ ((-1 : Int) * 400 + 395 = 0 * 400 + 5 + (-10)))
      ∧ ¬ ∃ q : Position, Position.wellFormed 400 q = true ∧ q.turns * 400 + q.count = 8388607 * 400 + (399 : Nat) + 1 := by
  refine ⟨by decide +kernel, rfl, by decide, ?_⟩
  rintro ⟨q, h, e⟩
  rw [position_wellFormed_iff] at h
  omega

/-! ### Witnesses: captures -/

/-- A full table. -/
def fullTable : State :=
  { State.reset with
    snaps := Vector.ofFn (fun i => some ⟨i.1 + 1, 0#48, .host 0, 1#3, Vector.replicate 4 none⟩)
    nextCapture := 17 }

/-- Label 5 of Table 11.3, falling edge: P2 alone is a candidate and at its limit, no number is used, and the notice that waits
from the rising edge then has count 2 (section 11.3). -/
theorem test_pruned_alone_is_told :
    let s := { State.reset with holds := #v[0, 1, 8], nextCapture := 10 }.modPort 2 (fun r => { r with
      capSubs := #v[.both, .none], notices := [⟨.snapshotSkipped .cap0 1 .holdLimit, none⟩] })
    let t := s.edgeCapture 0 false
    t.nextCapture = 10 ∧ (t.port 2).notices = [⟨.snapshotSkipped .cap0 2 .holdLimit, none⟩] := by decide +kernel

theorem witness_CaptureEndsInOneOfThreeWays :
    let reader (s : State) (m : PortMask) (q : PortId) : Bool := hasPort m q && decide (s.holds.get q < 8)
    let atLimit : State := { State.reset with holds := Vector.replicate 3 8 }
    281474976710656 ≤ ({ State.reset with nextCapture := 281474976710656 } : State).nextCapture
      ∧ ({ State.reset with nextCapture := 281474976710655 } : State).nextCapture < 281474976710656
      ∧ (∀ q, reader atLimit 7#3 q = false) ∧ (∃ q, reader State.reset 4#3 q = true)
      ∧ (∀ i, (fullTable.snaps.get i).isSome = true) ∧ State.reset.snaps.get 0 = none
      ∧ (withSnap State.reset 1#3).snaps.get 1 = none
      ∧ ∀ j, j < 1 → ((withSnap State.reset 1#3).snaps.get j).isSome = true := by decide +kernel

/-- Each of the five outcomes of Table 7.5. -/
theorem witness_SnapTakesAHostCapture :
    let out (s : State) := (s.capture (.host 0) s.time (maskOf (fun q => decide (q = 0) || hasPort 6#3 q)) (some 0)).2
    (asking State.reset 0x40#8 [6#8]).asks 0 0x40#8 9#8 [6#8] ∧ parseSnap [8#8] = none ∧ parseSnap [6#8] = some 6#3
      ∧ out { State.reset with nextCapture := 281474976710656 } = .exhausted
      ∧ out { State.reset with holds := Vector.replicate 3 8 } = .noReader ∧ out fullTable = .tableFull
      ∧ out { fullTable with holds := upd fullTable.holds 0 8 } = .tableFull ∧ out State.reset = .filled 1
      ∧ out { State.reset with holds := upd State.reset.holds 0 8 } = .filled 1 := by decide +kernel

/-- A level that is accepted, and one that is not. -/
theorem witness_GateInputsRunTheirFilters :
    FilterStep 3 .high ⟨.low, 2⟩ ⟨.high, 0⟩ ∧ FilterStep 3 .high ⟨.low, 1⟩ ⟨.low, 2⟩ := by
  unfold FilterStep
  decide

theorem witness_SnapshotsAreReadListedAndReleased :
    let s := withSnap State.reset 5#3
    s.NumberLaw ∧ (asking s 0x44#8 [0#8, 0#8, 0#8, 0#8, 0#8, 1#8]).asks 0 0x44#8 9#8 [0#8, 0#8, 0#8, 0#8, 0#8, 1#8]
      ∧ beNat [0#8, 0#8, 0#8, 0#8, 0#8, 1#8] = 1 ∧ (s.snaps.get 0).map Snapshot.number = some 1
      ∧ (∀ i x, s.snaps.get i = some x → decide (x.number ≠ 2) = true)
      ∧ (s.snaps.get 0).map (fun x => (hasPort x.readers 0, hasPort x.readers 1)) = some (true, false)
      ∧ (∀ i x, (State.reset).snaps.get i = some x → hasPort x.readers 0 = false) := by
  refine ⟨⟨?_, ?_, by decide +kernel, by decide +kernel⟩, by decide +kernel, by decide, by decide +kernel,
    of_snaps (by decide +kernel), by decide +kernel, ?_⟩
  · intro i x h
    have := of_snaps (s := withSnap State.reset 5#3) (P := fun _ x => decide (x.number = 1)) (by decide +kernel) i x h
    have := of_decide_eq_true this
    exact ⟨by omega, by rw [this]; decide +kernel⟩
  · intro i j x y hi hj _
    have h1 := of_decide_eq_true (of_snaps (s := withSnap State.reset 5#3) (P := fun i _ => decide (i = 0)) (by decide +kernel)
      i x hi)
    have h2 := of_decide_eq_true (of_snaps (s := withSnap State.reset 5#3) (P := fun i _ => decide (i = 0)) (by decide +kernel)
      j y hj)
    rw [h1, h2]
  · intro i x h
    have := of_snaps (s := State.reset) (P := fun _ _ => false) (by decide +kernel) i x h
    cases this

/-! ### Witnesses: host ports and notices -/

theorem witness_ReadingCommandsAnswerAndChangeNothing :
    (∀ x ∈ [0x01#8, 0x06#8, 0x02#8, 0x22#8, 0x39#8], (asking State.reset x []).asks 0 x 9#8 []
        ∧ (asking State.reset x [0#8]).asks 0 x 9#8 [0#8])
      ∧ (asking State.reset 0x13#8 [3#8]).asks 0 0x13#8 9#8 [BitVec.ofNat 8 (3 : AxisId).1]
      ∧ (asking State.reset 0x04#8 [255#8]).asks 0 0x04#8 9#8 [255#8] ∧ (State.reset.port 0).lastDelivered = none
      ∧ ((State.reset.modPort 0 (fun r => { r with lastDelivered := some ⟨255#8, ⟨.response, 1#8, [0#8]⟩⟩ })).port 0).lastDelivered
          = some ⟨255#8, ⟨.response, 1#8, [0#8]⟩⟩ := by decide +kernel

theorem witness_SubscriptionsAreReplaced :
    (asking State.reset 0x05#8 [0x0F#8, 0xFF#8]).asks 0 0x05#8 9#8 [0x0F#8, 0xFF#8]
      ∧ parseSubscribe [0x0F#8, 0xFF#8] = some 0xFFF#12 ∧ parseSubscribe [0x10#8, 0#8] = none
      ∧ (asking State.reset 0x41#8 [1#8, 3#8]).asks 0 0x41#8 9#8 [1#8, 3#8]
      ∧ parseCaptureSub [1#8, 3#8] = some (1, .both) ∧ parseCaptureSub [2#8, 0#8] = none := by decide +kernel

theorem witness_PortResetEmptiesThePort :
    (asking State.reset 0x03#8 []).asks 0 0x03#8 9#8 [] ∧ (asking State.reset 0x03#8 [0#8]).asks 0 0x03#8 9#8 [0#8] := by
  decide +kernel

/-- The port record of the reset meets R160. -/
theorem witness_ResetIsBeforeFirstFrame : PortRec.reset.FirstFrame :=
  fun _ => ⟨rfl, rfl, rfl, rfl, rfl, rfl, fun _ _ e => nomatch e⟩

/-- A port before its first frame, as reset leaves it (`witness_ResetIsBeforeFirstFrame`) and with a notice; later ones with a response, with a notice, with neither, and one whose CS_N is low. -/
theorem witness_FallSelectsTheFrame :
    let r := { State.reset.port 0 with fresh := false }
    let busy : PortRec := { r with responses := [⟨1#8, [0#8], none⟩], notices := [⟨.claimLost (.axis 0), none⟩] }
    (State.reset.port 0).exchange = .idle ∧ (State.reset.port 0).fresh = true ∧ (State.reset.port 0).notices = []
      ∧ { r with notices := busy.notices, fresh := true }.responses = [] ∧ r.fresh = false ∧ busy.fresh = false
      ∧ r.exchange = .idle ∧ r.responses = [] ∧ r.notices = [] ∧ busy.exchange = .idle
      ∧ busy.responses = ⟨1#8, [0#8], none⟩ :: [] ∧ busy.notices = ⟨.claimLost (.axis 0), none⟩ :: []
      ∧ Exchange.waitHigh ≠ .idle := by decide +kernel

/-- A response frame of six bytes: six bytes clocked deliver it, five do not; a voided one is not delivered. -/
theorem witness_RiseDeliversThenJudges :
    let f : DeviceFrame := ⟨0x47#8, 0#8, .response, 1#8, []⟩
    (State.reset.port 0).exchange = .idle
      ∧ (f.kind ≠ .idle ∧ f.body.length + 6 ≤ (bytesOfBits (List.replicate 48 false)).length)
      ∧ ¬ f.body.length + 6 ≤ (bytesOfBits (List.replicate 47 false)).length
      ∧ ((State.reset.modPort 0 (fun r => { r with exchange := .active f false })).port 0).exchange = .active f false
      ∧ ((State.reset.modPort 0 (fun r => { r with exchange := .waitHigh })).port 0).exchange = .waitHigh := by decide +kernel

/-- An open exchange, a voided one, and none. -/
theorem witness_FramesAreSentBitByBit :
    let f : DeviceFrame := ⟨0x48#8, 0#8, .idle, 0#8, []⟩
    (∀ v, ({ PortRec.reset with exchange := .active f v } : PortRec).exchange = .active f v)
      ∧ (∀ v, PortRec.reset.exchange ≠ .active f v) ∧ (7 < 8 * f.bytes.length ∧ ¬ 48 < 8 * f.bytes.length) := by
  decide +kernel

/-- LEN 0, 1, 39, 2 and 38; a frame cut short; a right and a wrong CRC. -/
theorem witness_RequestsAreJudgedByTable82 :
    (0#8).toNat = 0 ∧ (1#8).toNat = 1 ∧ 38 < (39#8).toNat ∧ (2 ≤ (38#8).toNat ∧ (38#8).toNat ≤ 38)
      ∧ [2#8, 1#8, 1#8].length < (2#8).toNat + 2 ∧ [1#8, 1#8, 0xEF#8] = 1#8 :: 1#8 :: [] ++ 0xEF#8 :: []
      ∧ ([] : List Byte).length + 2 = (2#8).toNat ∧ crc8 [2#8, 1#8, 1#8] = 0xEF#8 ∧ crc8 [2#8, 1#8, 1#8] ≠ 0xEE#8 := by
  decide +kernel

theorem witness_RequestFramesReadBack : (List.replicate 36 0xFF#8).length ≤ 36 ∧ (List.replicate 7 true).length < 8 := by decide

theorem witness_RequestsAreTakenFromTheHead :
    let damaged := State.reset.modPort 0 (fun r => { r with requests := [.damaged .crc 5#8] })
    (damaged.port 0).requests.head? = some (.damaged .crc 5#8) ∧ (State.reset.port 0).requests.head? = none
      ∧ (asking State.reset 0x07#8 []).asks 0 0x07#8 9#8 [] ∧ (asking State.reset 0x45#8 []).asks 0 0x45#8 9#8 [] := by
  decide +kernel

/-- A queue with no entry of the notice's key, one whose selected head has it, and one whose second entry has it. -/
theorem witness_NoticesJoinOrMerge :
    let n : Notice := .motionChanged 0 .forward
    let m : Notice := .claimLost (.line 7)
    let r (l : List NoticeEntry) : PortRec :=
      { PortRec.reset with notices := l, exchange := .active ⟨0#8, 0#8, .notice, 5#8, []⟩ false }
    (∀ e ∈ (r [⟨m, none⟩]).notices, e.notice.key ≠ n.key)
      ∧ (r [⟨n, none⟩]).notices = [] ++ ⟨n, none⟩ :: []
      ∧ (r []).exchange = .active ⟨0#8, 0#8, .notice, 5#8, []⟩ false
      ∧ ((r [⟨m, none⟩, ⟨n, none⟩]).notices = [⟨m, none⟩] ++ ⟨n, none⟩ :: [] ∧ ∀ x ∈ [(⟨m, none⟩ : NoticeEntry)],
          x.notice.key ≠ n.key) := by decide

/-! ### Witnesses: the laws -/

/-- A state at the edges of the laws, whose queue holds a tick: axis 0 REFERENCED at the last position with an ARMED entry of
the last serial that pulses a line its port holds; axis 1 with the greatest debt; a full port; a snapshot that all read; a
notice with a late part. -/
def busy : State :=
  { (withSnap (withEntryAt (holding (counting .quadIndex 1048576 (fun r =>
        { r with pos := ⟨8388607, 1048575⟩, refState := .referenced, refOffset := 1048575, refTurns := -8388608 })) 0 (.line 7))
        { entryAt ⟨-8388608, 0⟩ (.pulse 7 65535) (some ⟨-1, 65535⟩) .armed 4294967295 with notify := false }) 7#3).modAxis 1
      (fun r => { r with cfg := { cfgOf .hall3 2 with policy := .fwdOnly, tolerance := 0 }, run := .counting, debt := 65535,
                         pos := ⟨-8388608, 1⟩ }) with
    pending := [.deviceTimeTick]
    claims := upd (upd (upd State.reset.claims 11 ⟨some 0, 0, none, .high⟩) 0 ⟨some 0, 60000, some 9#48, .low⟩) 4
      ⟨some 2, 10, some 8#48, .low⟩
    lines := upd State.reset.lines 7 ⟨.high, some 9#48, 1#32⟩
    nextSerial := upd State.reset.nextSerial 0 4294967296
    ports := upd State.reset.ports 0 { PortRec.reset with
      requests := [.damaged .crc 0#8]
      responses := List.replicate 7 ⟨1#8, [0#8], none⟩
      notices := [⟨.motionChanged 0 .forward, some (.motionChanged 0 .stopped)⟩, ⟨.motionChanged 1 .forward, none⟩]
      exchange := .active ⟨0x70#8, 0#8, .notice, 5#8, [0#8, 1#8]⟩ false
      fresh := false } }

/-- A step of `busy` answers a next state. -/
theorem witness_laws_step : ∃ t, step busy = .next t := ⟨_, rfl⟩

theorem witness_StepKeepsRatchetAndCountingLaws : busy.RatchetLaw ∧ busy.CountingLaw ∧ (busy.axis 1).debt = 65535 := by
  unfold State.RatchetLaw State.CountingLaw
  decide +kernel

theorem witness_StepKeepsPositionsInRange : busy.PositionLaw := by
  unfold State.PositionLaw AxisRec.Placed
  decide +kernel

theorem witness_StepKeepsArmedEntriesReferenced : busy.ArmedLaw ∧ (busy.slot 0).entry.map Entry.state = some .armed :=
  ⟨fun i e h h' => of_decide_eq_true (of_slots (s := busy)
    (P := fun _ e => decide ((busy.axis e.axis).refState = .referenced)) (by decide +kernel) i e h), by decide +kernel⟩

theorem witness_StepKeepsClaimRecordsLegal : busy.ClaimLaw :=
  claimLaw_of (by decide +kernel) (by unfold ClaimRec.Legal; decide +kernel)

/-- One port with 48 entries: the shared places are full. -/
theorem witness_StepKeepsPoolAccounts :
    busy.PoolLaw ∧ (booking State.reset 48).PoolLaw ∧ (booking State.reset 48).sharedPlaces = 40 := by
  unfold State.PoolLaw
  decide +kernel

theorem witness_StepKeepsLinesWithTheirHolders : busy.LineEntryLaw ∧ busy.FreeLineLaw := by
  refine ⟨fun i e l h => ?_, by unfold State.FreeLineLaw; decide +kernel⟩
  have := of_slots (s := busy)
    (P := fun _ e => decide (∀ l, e.action.line? = some l → (busy.claim (.line l)).holder = some e.owner)) (by decide +kernel) i e h
  exact of_decide_eq_true this l

theorem witness_StepKeepsSnapshotTable : busy.HoldLaw ∧ busy.NumberLaw := by
  refine ⟨⟨fun i x h => ?_, by decide +kernel, by decide +kernel⟩, fun i x h => ?_, fun i j x y hi hj _ => ?_, by decide +kernel,
    by decide +kernel⟩
  · exact of_decide_eq_true (of_snaps (s := busy) (P := fun _ x => decide (x.readers ≠ 0#3)) (by decide +kernel) i x h)
  · exact of_decide_eq_true (of_snaps (s := busy) (P := fun _ x => decide (1 ≤ x.number ∧ x.number < busy.nextCapture))
      (by decide +kernel) i x h)
  · have h1 := of_decide_eq_true (of_snaps (s := busy) (P := fun i _ => decide (i = 0)) (by decide +kernel) i x hi)
    have h2 := of_decide_eq_true (of_snaps (s := busy) (P := fun i _ => decide (i = 0)) (by decide +kernel) j y hj)
    rw [h1, h2]

theorem witness_StepKeepsPortQueuesBounded :
    busy.QueueLaw ∧ (busy.port 0).requests.length + (busy.port 0).responses.length = 8 ∧ busy.FirstFrameLaw
      ∧ (busy.port 0).fresh = false ∧ (busy.port 1).fresh = true := by
  refine ⟨by unfold State.QueueLaw; decide +kernel, by decide +kernel, fun p => ?_, by decide +kernel, by decide +kernel⟩
  intro h
  have key : ∀ p, (busy.port p).fresh = true → (busy.port p).requests = [] ∧ (busy.port p).responses = []
      ∧ (busy.port p).frameNo = 0#8 ∧ (busy.port p).lastDelivered = none ∧ (busy.port p).dropped = false
      ∧ (busy.port p).resetSeen = true ∧ (busy.port p).exchange = .idle := by decide +kernel
  obtain ⟨h1, h2, h3, h4, h5, h6, h7⟩ := key p h
  exact ⟨h1, h2, h3, h4, h5, h6, fun f v => by rw [h7]; exact fun e => nomatch e⟩

theorem witness_StepKeepsNoticesDistinct : busy.NoticeLaw := by
  intro p
  refine ⟨?_, ?_, ?_⟩
  · revert p
    decide +kernel
  · have h : ∀ p, (busy.port p).notices.all (fun e => e.late.all (fun n => decide (n.key = e.notice.key))) = true := by
      decide +kernel
    intro e he n hn
    have := List.all_eq_true.mp (h p) e he
    rw [hn] at this
    exact of_decide_eq_true this
  · revert p
    decide +kernel

theorem witness_StepKeepsSerialsDistinct : busy.SerialLaw ∧ busy.nextSerial.get 0 = 4294967296 := by
  refine ⟨⟨by decide +kernel, fun i e h => ?_, fun i j e f hi hj _ _ => ?_⟩, by decide +kernel⟩
  · exact of_decide_eq_true (of_slots (s := busy) (P := fun _ e => decide (e.serial < busy.nextSerial.get e.axis))
      (by decide +kernel) i e h)
  · have h1 := of_decide_eq_true (of_slots (s := busy) (P := fun i _ => decide (i = 0)) (by decide +kernel) i e hi)
    have h2 := of_decide_eq_true (of_slots (s := busy) (P := fun i _ => decide (i = 0)) (by decide +kernel) j f hj)
    rw [h1, h2]

end Sys2Proof.Tests
end

section
/-! PROOFS. Counting inputs and fault entry: the axis record after each shared operation of a raw step and of a fault, the
decoder on each cycle of codes, and the four statements they settle. -/

namespace Sys2Proof.Machine

/-! ### Notices, references and faults: the axis records and the pool after them -/

@[simp] theorem raiseSubscribed_axis (s : State) (bit : Nat) (n : Notice) (b : AxisId) :
    (s.raiseSubscribed bit n).axis b = s.axis b := by
  rw [raiseSubscribed_eq, toldSubscribers_axis]

@[simp] theorem raiseSubscribed_pool (s : State) (bit : Nat) (n : Notice) : (s.raiseSubscribed bit n).pool = s.pool := by
  rw [raiseSubscribed_eq, toldSubscribers_pool]

@[simp] theorem handOver_axis (s : State) (a : AxisId) (old new : RefState) (b : AxisId) :
    (s.handOver a old new).axis b = s.axis b := by
  obtain ⟨x, h⟩ := handOver_touches s a old new
  rw [h]
  rfl

/-- A change of the reference writes reference state and epoch of its axis alone (R45, R46). -/
theorem changeReference_axis (s : State) (a : AxisId) (st : RefState) (ep : BitVec 16) (b : AxisId) :
    (s.changeReference a st ep).axis b
      = if b = a then { s.axis a with refState := st, epoch := ep } else s.axis b := by
  unfold State.changeReference State.putReference
  split <;> simp [modAxis_axis]

/-- A fault writes the fault record and the reference state of its axis alone (R18, R40, R62). -/
theorem fault_axis (s : State) (a : AxisId) (k : FaultKind) (t : Time) (st : RefState) (b : AxisId) :
    (s.fault a k t st).axis b
      = if b = a then { s.axis a with faults := (s.axis a).faults.enter k t, refState := st } else s.axis b := by
  unfold State.fault State.raiseAxisFault State.enterFault
  by_cases h : b = a <;> simp [changeReference_axis, modAxis_axis, h]

/-! ### The raw step -/

@[simp] theorem rawStep_axis_same (s : State) (a : AxisId) (d : Dir) (t : Time) :
    (s.rawStep a d t).axis a = (s.axis a).rawStep d t := by
  unfold State.rawStep
  split <;> simp

@[simp] theorem rawStep_pool (s : State) (a : AxisId) (d : Dir) (t : Time) : (s.rawStep a d t).pool = s.pool := by
  unfold State.rawStep
  split <;> simp

/-- Where a raw step has landed: its fields, the debt the ratchet gives, and the position moved if it is applied
(R13, R15, R16). -/
theorem land_axis_same (s : State) (a : AxisId) (t : Time) (d : Dir) :
    (s.land a t d).axis a = { (s.axis a).rawStep d t with
      debt := (ratchet (s.axis a).cfg.policy d (s.axis a).debt).debt
      pos := if stepApplies (s.axis a) d then stepPosition (s.axis a).cfg.cpr d (s.axis a).pos else (s.axis a).pos } := by
  unfold State.land State.setDebt State.moveAxis
  by_cases h : stepApplies (s.axis a) d <;> simp [h, AxisRec.rawStep]

@[simp] theorem land_pool (s : State) (a : AxisId) (t : Time) (d : Dir) : (s.land a t d).pool = s.pool := by
  unfold State.land State.setDebt State.moveAxis
  by_cases h : stepApplies (s.axis a) d <;> simp [h]

/-- The firings of an offer write no axis record (R105). -/
@[simp] theorem offer_axis (s : State) (a : AxisId) (d : Dir) (t : Time) (b : AxisId) :
    (s.offer a d t).axis b = s.axis b := by
  obtain ⟨_, _, _, _, _, _, _, _, h⟩ := offer_touches s a d t
  rw [h]
  rfl

/-- Stage 2(e) keeps the ratchet debt, whether the missed-index check triggers or not (R60 to R62). -/
theorem checkStep_debt (s : State) (a : AxisId) (t : Time) (d : Dir) :
    ((s.checkStep a t d).axis a).debt = (s.axis a).debt := by
  unfold State.checkStep State.countStep State.missedIndex
  split <;> simp [fault_axis]

/-- A raw step that the ratchet does not apply ends where it has landed (R16). -/
theorem oneStep_of_not_applies (s : State) (a : AxisId) (t : Time) (d : Dir) (h : stepApplies (s.axis a) d = false) :
    s.oneStep a t d = s.land a t d := by
  simp [State.oneStep, h]

/-- Every raw step stores the debt that the ratchet gives (R13). -/
theorem oneStep_debt (s : State) (a : AxisId) (t : Time) (d : Dir) :
    ((s.oneStep a t d).axis a).debt = (ratchet (s.axis a).cfg.policy d (s.axis a).debt).debt := by
  unfold State.oneStep
  split
  · rw [checkStep_debt, offer_axis, land_axis_same]
  · rw [land_axis_same]

/-! ### The ratchet, Table 1.9 -/

theorem ratchet_of_forbids {pol : DirPolicy} {d : Dir} (h : forbids pol d = true) (n : Nat) :
    ratchet pol d n = if n < 65535 then ⟨false, n + 1, false⟩ else ⟨false, n, true⟩ := by
  have hp : pol ≠ .any := by
    rintro rfl
    cases h
  rw [ratchet, if_neg hp, if_pos h]
  rfl

theorem ratchet_of_permits {pol : DirPolicy} {d : Dir} (hp : pol ≠ .any) (h : forbids pol d = false) (n : Nat) :
    ratchet pol d n = if 0 < n then ⟨false, n - 1, false⟩ else ⟨true, 0, false⟩ := by
  simp [ratchet, hp, h]

/-- Settles O8: the rows of Table 1.9 by whether the policy forbids the direction, then the frame of a raw step. -/
theorem ratchetFollowsItsTable : Obligations.RatchetFollowsItsTable := by
  unfold Obligations.RatchetFollowsItsTable
  have fwdForbids : forbids .fwdOnly .reverse = true := rfl
  have revForbids : forbids .revOnly .forward = true := rfl
  have fwdPermits := ratchet_of_permits (pol := .fwdOnly) (d := .forward) (by decide) rfl
  have revPermits := ratchet_of_permits (pol := .revOnly) (d := .reverse) (by decide) rfl
  refine ⟨fun d => rfl, fun n hn => ?_, ?_, ?_, fun n hn => ?_, ?_, ?_,
    fun s a t d => ⟨oneStep_debt s a t d, fun h => ?_, fun h => ?_⟩⟩
  · simp [ratchet_of_forbids fwdForbids, ratchet_of_forbids revForbids, hn]
  · simp [ratchet_of_forbids fwdForbids]
  · simp [ratchet_of_forbids revForbids]
  · simp [fwdPermits, revPermits, hn]
  · simp [fwdPermits]
  · simp [revPermits]
  · simp [stepFaults, h]
  · have hn : stepApplies (s.axis a) d = false := h
    rw [oneStep_of_not_applies s a t d hn, land_axis_same, land_pool]
    simp [hn, AxisRec.rawStep]

/-! ### Faults, Tables 1.11 and 1.12 -/

/-- A fault whole: the record is entered, the reference changes, and AXIS_FAULT carries the set as it was entered, because the
change of the reference keeps the fault record (R18, R40, R62). -/
theorem fault_eq (s : State) (a : AxisId) (k : FaultKind) (t : Time) (st : RefState) :
    s.fault a k t st
      = ((s.modAxis a (fun r => { r with faults := (s.axis a).faults.enter k t })).changeReference a st
          (s.axis a).epoch).toldSubscribers (4 + a.1) (.axisFault a ((s.axis a).faults.enter k t).set) := by
  have entered : s.enterFault a k t = s.modAxis a (fun r => { r with faults := (s.axis a).faults.enter k t }) := rfl
  rw [State.fault, State.raiseAxisFault, raiseSubscribed_eq, changeReference_axis, entered]
  simp [subFault]

theorem afterMinor_eq (st : RefState) :
    afterMinor st = if st = .referenced then .suspect else if st = .suspect then .lost else st := by
  cases st <;> rfl

theorem afterMajor_eq (st : RefState) :
    afterMajor st = if st = .referenced ∨ st = .suspect then .lost else st := by
  cases st <;> rfl

theorem sensorFault_of_minor {k : FaultKind} (h : isMajor k = false) (s : State) (a : AxisId) (t : Time) :
    s.sensorFault a t k = s.fault a k t (afterMinor (s.axis a).refState) := by
  simp [State.sensorFault, h]

theorem sensorFault_of_major {k : FaultKind} (h : isMajor k = true) (s : State) (a : AxisId) (t : Time) :
    s.sensorFault a t k = s.fault a k t (afterMajor (s.axis a).refState) := by
  simp [State.sensorFault, h]

/-- Settles O21: the fault whole (`fault_eq`), and the class of each sensor fault by Table 1.11. -/
theorem faultIsEnteredThenActsThenTells : Obligations.FaultIsEnteredThenActsThenTells := by
  unfold Obligations.FaultIsEnteredThenActsThenTells
  refine ⟨by decide, fun s a k t => ⟨fun st => fault_eq s a k t st, fun hk => ?_, fun hk => ?_⟩⟩
  · have minor : isMajor k = false := by rcases hk with rfl | rfl | rfl <;> rfl
    rw [sensorFault_of_minor minor, afterMinor_eq]
    exact fault_eq s a k t _
  · have major : isMajor k = true := by rcases hk with rfl | rfl <;> rfl
    rw [sensorFault_of_major major, afterMajor_eq]
    exact fault_eq s a k t _

/-! ### Stage 1: unchanged codes, changed codes, baselines (R7) -/

theorem decodeSample_unchanged {r : AxisRec} {c : Code} (h : r.prevCode = some c) : decodeSample r c = .nothing := by
  simp [decodeSample, h]

theorem decodeSample_changed {r : AxisRec} {old new : Code} (h : r.prevCode = some old) (hne : old ≠ new) :
    decodeSample r new = decodeChange r.cfg r.lastDir old new := by
  simp [decodeSample, h, hne]

theorem decodeSample_baseline {r : AxisRec} (h : r.prevCode = none) (new : Code) :
    decodeSample r new = decodeBaseline r.cfg new := by
  simp [decodeSample, h]

/-! ### The quadrature cycle (R8, R9) -/

@[simp] theorem phaseOf_quadPhase (i : Fin 4) (z : Level) : phaseOf ⟨(quadPhase i).1, (quadPhase i).2, z⟩ = i.1 := by
  fin_cases i <;> rfl

/-- The codes of different phases differ, whatever the level of Z. -/
theorem quadPhase_code_inj {i j : Fin 4} {y z : Level}
    (h : (⟨(quadPhase i).1, (quadPhase i).2, y⟩ : Code) = ⟨(quadPhase j).1, (quadPhase j).2, z⟩) : i = j ∧ y = z := by
  have phases := congrArg phaseOf h
  rw [phaseOf_quadPhase, phaseOf_quadPhase] at phases
  exact ⟨Fin.ext phases, congrArg Code.z h⟩

/-- The phase difference of Table 1.5 is the distance in the cycle. -/
theorem phase_difference (i k : Fin 4) : ((i + k).1 + 4 - i.1) % 4 = k.1 := by
  rw [Fin.val_add]
  omega

theorem quadSteps_eq (k : Fin 4) :
    quadSteps k.1 = if k = 1 then [.forward] else if k = 3 then [.reverse] else [] := by
  fin_cases k <;> rfl

theorem lastDirAfter_quadSteps (dir : LastDir) (k : Fin 4) :
    lastDirAfter dir (quadSteps k.1) = if k = 1 then .forward else if k = 3 then .reverse else dir := by
  fin_cases k <;> rfl

/-- A change of the code by `k` phases, with the step of Table 1.5 and the last direction that the step leaves. -/
theorem decodeQuad_quadPhase (cfg : AxisConfig) (dir : LastDir) (i k : Fin 4) (zOld zNew : Level) :
    decodeQuad cfg dir ⟨(quadPhase i).1, (quadPhase i).2, zOld⟩ ⟨(quadPhase (i + k)).1, (quadPhase (i + k)).2, zNew⟩
      = { steps := if k = 1 then [.forward] else if k = 3 then [.reverse] else []
          index := decide (cfg.mode = .quadIndex) && isIndexEvent cfg.polarity
            (if k = 1 then .forward else if k = 3 then .reverse else dir) zOld zNew
          fault := if k = 2 then some .quadSkip else none } := by
  unfold decodeQuad
  dsimp only
  rw [phaseOf_quadPhase, phaseOf_quadPhase, phase_difference, lastDirAfter_quadSteps, quadSteps_eq]
  have skip : k.1 = 2 ↔ k = 2 := by simp [Fin.ext_iff]
  simp [skip]

theorem zActive_iff (p : Polarity) (z : Level) :
    zActive p z = true ↔ p = .activeHigh ∧ z = .high ∨ p = .activeLow ∧ z = .low := by
  cases p <;> cases z <;> decide

/-- The condition of R9: Z became active while FORWARD, or inactive while REVERSE. -/
theorem isIndexEvent_iff (p : Polarity) (dir : LastDir) (old new : Level) :
    isIndexEvent p dir old new = true
      ↔ old ≠ new ∧ (zActive p new = true ∧ dir = .forward ∨ ¬ zActive p new = true ∧ dir = .reverse) := by
  cases dir <;> simp [isIndexEvent]

/-- QUAD and QUAD_INDEX: a code of another phase or another level of Z is a change of the code (R7). -/
theorem decodeSample_quadPhase {r : AxisRec} {i j : Fin 4} {y z : Level}
    (hm : r.cfg.mode = .quad ∨ r.cfg.mode = .quadIndex) (hp : r.prevCode = some ⟨(quadPhase i).1, (quadPhase i).2, y⟩)
    (hne : i ≠ j ∨ y ≠ z) :
    decodeSample r ⟨(quadPhase j).1, (quadPhase j).2, z⟩
      = decodeQuad r.cfg r.lastDir ⟨(quadPhase i).1, (quadPhase i).2, y⟩ ⟨(quadPhase j).1, (quadPhase j).2, z⟩ := by
  rw [decodeSample_changed hp fun h =>
    hne.elim (fun hi => hi (quadPhase_code_inj h).1) (fun hz => hz (quadPhase_code_inj h).2)]
  rcases hm with hm | hm <;> simp [decodeChange, hm]

/-- Settles O6: the new phase is `k` steps on in the cycle, and Table 1.5 is a table over `k`. -/
theorem quadratureStepsAndIndexEvents : Obligations.QuadratureStepsAndIndexEvents := by
  unfold Obligations.QuadratureStepsAndIndexEvents
  intro r i j zOld zNew
  obtain ⟨k, rfl⟩ : ∃ k, j = i + k := ⟨j - i, by simp⟩
  simp only [add_right_inj]
  refine ⟨fun hm hne hp => ?_, fun hm hne hp => ?_⟩
  · rw [decodeSample_quadPhase (.inl hm) hp (.inl hne), decodeQuad_quadPhase]
    simp [hm]
  · rw [decodeSample_quadPhase (.inr hm) hp hne, decodeQuad_quadPhase]
    simp only [hm, decide_true, Bool.true_and, true_and]
    rw [isIndexEvent_iff, zActive_iff]

/-! ### The Hall sectors and STEP_DIR (R10 to R12) -/

@[simp] theorem sectorOf_hallSector (i : Fin 6) : sectorOf (hallSector i) = some i.1 := by
  fin_cases i <;> rfl

@[simp] theorem sectorOf_uniform (l : Level) : sectorOf ⟨l, l, l⟩ = none := by
  cases l <;> rfl

theorem hallSector_injective : Function.Injective hallSector := by
  intro i j h
  have sectors := congrArg sectorOf h
  simp only [sectorOf_hallSector, Option.some.injEq] at sectors
  exact Fin.ext sectors

/-- 000 and 111 are no sector. -/
theorem uniform_ne_hallSector (l : Level) (j : Fin 6) : (⟨l, l, l⟩ : Code) ≠ hallSector j := by
  intro h
  simpa using congrArg sectorOf h

/-- The sector difference of Table 1.7 is the distance in the cycle. -/
theorem sector_difference (i k : Fin 6) : ((i + k).1 + 6 - i.1) % 6 = k.1 := by
  rw [Fin.val_add]
  omega

/-- Table 1.7, over the differences that a change of the sector can have. -/
theorem hallResult_eq {k : Fin 6} (h : k ≠ 0) :
    hallResult k.1
      = if k = 1 then ⟨[.forward], false, none⟩
        else if k = 5 then ⟨[.reverse], false, none⟩
        else if k = 2 then ⟨[.forward, .forward], false, some .hallSkip⟩
        else if k = 4 then ⟨[.reverse, .reverse], false, some .hallSkip⟩
        else ⟨[], false, some .hallSkip⟩ := by
  fin_cases k
  · exact absurd rfl h
  all_goals rfl

theorem decodeHall_sectors (i k : Fin 6) : decodeHall (hallSector i) (hallSector (i + k)) = hallResult k.1 := by
  simp [decodeHall, sector_difference]

theorem decodeHall_of_invalid_new {old new : Code} (h : sectorOf new = none) :
    decodeHall old new = ⟨[], false, some .hallCode⟩ := by
  simp [decodeHall, h]

theorem decodeHall_of_invalid_old {old : Code} (h : sectorOf old = none) (j : Fin 6) :
    decodeHall old (hallSector j) = .nothing := by
  simp [decodeHall, h]

theorem decodeChange_hall {cfg : AxisConfig} (h : cfg.mode = .hall3) (dir : LastDir) (old new : Code) :
    decodeChange cfg dir old new = decodeHall old new := by
  simp [decodeChange, h]

/-- HALL3, two different sectors (R10). -/
theorem decodeSample_hall_sectors {r : AxisRec} {i k : Fin 6} (hm : r.cfg.mode = .hall3) (hk : k ≠ 0)
    (hp : r.prevCode = some (hallSector i)) : decodeSample r (hallSector (i + k)) = hallResult k.1 := by
  have hne : hallSector i ≠ hallSector (i + k) := fun h => hk (by simpa using hallSector_injective h)
  rw [decodeSample_changed hp hne, decodeChange_hall hm, decodeHall_sectors]

/-- HALL3, an invalid code (R11). -/
theorem decodeSample_hall_invalid {r : AxisRec} (hm : r.cfg.mode = .hall3) (l : Level) :
    decodeSample r ⟨l, l, l⟩ = if r.prevCode = some ⟨l, l, l⟩ then ⟨[], false, none⟩ else ⟨[], false, some .hallCode⟩ := by
  split
  next h => rw [decodeSample_unchanged h, Decoded.nothing]
  next h =>
    rcases hp : r.prevCode with _ | old
    · simp [decodeSample_baseline hp, decodeBaseline, hm]
    · have hne : old ≠ ⟨l, l, l⟩ := fun e => h (by rw [hp, e])
      rw [decodeSample_changed hp hne, decodeChange_hall hm, decodeHall_of_invalid_new (sectorOf_uniform l)]

/-- HALL3, a valid code after an invalid one or as the first (R7, R11). -/
theorem decodeSample_hall_baseline {r : AxisRec} {l : Level} (hm : r.cfg.mode = .hall3)
    (hp : r.prevCode = some ⟨l, l, l⟩ ∨ r.prevCode = none) (j : Fin 6) : decodeSample r (hallSector j) = .nothing := by
  rcases hp with hp | hp
  · rw [decodeSample_changed hp (uniform_ne_hallSector l j), decodeChange_hall hm,
      decodeHall_of_invalid_old (sectorOf_uniform l)]
  · simp [decodeSample_baseline hp, decodeBaseline]

/-- STEP_DIR: an unchanged code has no rise of A, so the rule for a changed code covers it too (R7, R12). -/
theorem decodeSample_stepDir {r : AxisRec} {old : Code} (hm : r.cfg.mode = .stepDir) (hp : r.prevCode = some old)
    (new : Code) : decodeSample r new = decodeStepDir old new := by
  by_cases h : old = new
  · subst h
    have norise : ¬ (old.a = .low ∧ old.a = .high) := by
      rintro ⟨hl, hh⟩
      cases hl.symm.trans hh
    rw [decodeSample_unchanged hp, decodeStepDir, if_neg norise]
  · simp [decodeSample_changed hp h, decodeChange, hm]

/-- Settles O7: the new sector is `k` steps on in the cycle, the invalid codes by R11, and STEP_DIR by the rise of A. -/
theorem hallAndStepDirDecoding : Obligations.HallAndStepDirDecoding := by
  unfold Obligations.HallAndStepDirDecoding
  refine ⟨fun r i j hm hne hp => ?_, fun r l hm => decodeSample_hall_invalid hm l,
    fun r l j hm hp => decodeSample_hall_baseline hm hp j, fun r aOld bOld aNew bNew hm hp => decodeSample_stepDir hm hp _⟩
  obtain ⟨k, rfl⟩ : ∃ k, j = i + k := ⟨j - i, by simp⟩
  have hk : k ≠ 0 := fun h => hne (by simp [h])
  simp only [add_right_inj]
  rw [decodeSample_hall_sectors hm hk hp, hallResult_eq hk]

end Sys2Proof.Machine
end

section
/-! PROOFS. The axis commands: how a taken request is answered, the check of the claim on its axis, and the effect of
CLEAR_FAULTS. -/

namespace Sys2Proof.Machine

/-! ### A taken request and its answer -/

/-- A command that acts on everything but the queues of its port answers the state it would reach with its request still at
the head (R153). -/
theorem takeRequest_answered {s t : State} {p : PortId} {c : Cmd} {cmd tag : Byte} {args body : List Byte}
    {act : State → List Byte → State × Reply} (h : s.asks p cmd tag args) (hc : Cmd.ofCode cmd = some c)
    (ht : act (s.popRequest p) args = (t.popRequest p, ⟨body, none⟩)) : s.takeRequest p c act = t.answered p tag body := by
  rw [takeRequest_of_asks h hc, ht, popRequest_pushResponse]

/-- Taking a request and changing an axis record touch different parts of the state. -/
theorem popRequest_modAxis (s : State) (p : PortId) (a : AxisId) (f : AxisRec → AxisRec) :
    (s.popRequest p).modAxis a f = (s.modAxis a f).popRequest p := rfl

/-- Taking a request and renewing a claim touch different parts of the state. -/
theorem popRequest_used (s : State) (p : PortId) (subj : Subject) :
    (s.popRequest p).used subj = (s.used subj).popRequest p := rfl

/-! ### The claim of an axis command (R26) -/

theorem withArgs_of_parse {α : Type} {parse : List Byte → Option α} {args : List Byte} {x : α} (h : parse args = some x)
    (act : State → α → State × Reply) (s : State) : withArgs parse act s args = act s x := by
  simp [withArgs, h]

theorem holdsClaim_iff (s : State) (p : PortId) (subj : Subject) :
    s.holdsClaim p subj = true ↔ (s.claim subj).holder = some p := by
  simp [State.holdsClaim]

theorem needAxis_of_holder {s : State} {p : PortId} {a : AxisId} (h : (s.claim (.axis a)).holder = some p)
    (act : State → State × Reply) : needAxis p a act s = act s := by
  rw [needAxis, if_pos ((holdsClaim_iff s p _).mpr h)]

theorem needAxis_of_not_holder {s : State} {p : PortId} {a : AxisId} (h : (s.claim (.axis a)).holder ≠ some p)
    (act : State → State × Reply) : needAxis p a act s = (s, .refused .notHolder) := by
  rw [needAxis, if_neg (mt (holdsClaim_iff s p _).mp h)]

/-- An accepted axis command has its effect and renews the claim on its axis (R26, R72). -/
theorem acceptAxis_eq (a : AxisId) (act : State → State) (data : State → List Byte) (s : State) :
    acceptAxis a act data s = ((act s).used (.axis a), .ok (data (act s))) := by
  rw [acceptAxis, renewByUse_eq_used]

/-! ### CLEAR_FAULTS (R41) -/

/-- CLEAR_FAULTS checks the claim and nothing else: no run state and no value (R26). -/
theorem clearFaultsReply_axis (p : PortId) (s : State) (a : AxisId) :
    clearFaultsReply p s [BitVec.ofNat 8 a.1]
      = needAxis p a (acceptAxis a (fun s => s.clearFaults a) (fun _ => [])) s :=
  withArgs_of_parse (parseAxis_byte a) _ s

theorem clearFaultsReply_of_holder {p : PortId} {s : State} {a : AxisId} (h : (s.claim (.axis a)).holder = some p) :
    clearFaultsReply p s [BitVec.ofNat 8 a.1] = ((s.clearFaults a).used (.axis a), .ok []) := by
  rw [clearFaultsReply_axis, needAxis_of_holder h, acceptAxis_eq]

theorem clearFaultsReply_of_not_holder {p : PortId} {s : State} {a : AxisId} (h : (s.claim (.axis a)).holder ≠ some p) :
    clearFaultsReply p s [BitVec.ofNat 8 a.1] = (s, .refused .notHolder) := by
  rw [clearFaultsReply_axis, needAxis_of_not_holder h]

/-- The emptying of the fault record commutes with the taking of the request. -/
theorem popRequest_clearFaults (s : State) (p : PortId) (a : AxisId) :
    (s.popRequest p).clearFaults a = (s.clearFaults a).popRequest p := popRequest_modAxis s p a _

/-- Settles O16: the reply by whether the port holds the claim; its effect commutes with the taking of the request. -/
theorem clearFaultsEmptiesTheRecord : Obligations.ClearFaultsEmptiesTheRecord := by
  unfold Obligations.ClearFaultsEmptiesTheRecord
  intro s p tag a asked
  have answers {t : State} {body : List Byte}
      (ht : clearFaultsReply p (s.popRequest p) [BitVec.ofNat 8 a.1] = (t.popRequest p, ⟨body, none⟩)) :
      exec (.clearFaults p) s = .next (t.answered p tag body) :=
    congrArg Host.Outcome.next (takeRequest_answered asked rfl ht)
  refine ⟨fun holder => answers ?_, fun stranger => answers ?_⟩
  · rw [clearFaultsReply_of_holder (s := s.popRequest p) holder, popRequest_clearFaults, popRequest_used]
    rfl
  · rw [clearFaultsReply_of_not_holder (s := s.popRequest p) stranger]
    rfl

end Sys2Proof.Machine
end

section
/-! PROOFS. Referencing: the drift and the SNAP correction as numbers, the index event by the reference state in force, and
the three reference commands. -/

namespace Sys2Proof.Machine

/-! ### The drift (R55) -/

/-- The drift is the remainder of count minus offset, one CPR lower where that is the short way round. -/
theorem driftOf_cases (cpr offset count : Nat) :
    let x := ((count : Int) - offset) % cpr
    (2 * x ≤ cpr ∧ driftOf cpr offset count = x) ∨ ((cpr : Int) < 2 * x ∧ driftOf cpr offset count = x - cpr) := by
  intro x
  by_cases long : 2 * x > cpr
  · exact .inr ⟨long, if_pos long⟩
  · exact .inl ⟨Int.not_lt.mp long, if_neg long⟩

theorem driftOf_bounds {cpr : Nat} (hc : 0 < cpr) (offset count : Nat) :
    2 * driftOf cpr offset count ≤ cpr ∧ -(cpr : Int) < 2 * driftOf cpr offset count := by
  have nonneg := Int.emod_nonneg ((count : Int) - offset) (b := cpr) (by omega)
  have below := Int.emod_lt_of_pos ((count : Int) - offset) (b := cpr) (by omega)
  obtain ⟨short, e⟩ | ⟨long, e⟩ := driftOf_cases cpr offset count
  · omega
  · omega

theorem driftOf_congr (cpr offset count : Nat) :
    ∃ k : Int, (count : Int) - offset = driftOf cpr offset count + k * cpr := by
  have division := Int.mul_ediv_add_emod ((count : Int) - offset) cpr
  obtain ⟨-, e⟩ | ⟨-, e⟩ := driftOf_cases cpr offset count
  · exact ⟨((count : Int) - offset) / cpr, by rw [e]; linarith⟩
  · exact ⟨((count : Int) - offset) / cpr + 1, by rw [e]; linarith⟩

/-! ### The corrected position (R56, R57) -/

/-- With CPR 0 no absolute position is in range. -/
theorem cpr_pos_of_absInRange {cpr : Nat} {x : Int} (h : absInRange cpr x = true) : 0 < cpr := by
  simp only [absInRange, Bool.and_eq_true, decide_eq_true_eq] at h
  rcases Nat.eq_zero_or_pos cpr with rfl | pos
  · omega
  · exact pos

/-- The SNAP correction goes to the one position in range whose absolute number is lower by the drift (R57). -/
theorem snapTo_eq_some_iff (cpr : Nat) (p q : Position) (d : Int) :
    snapTo cpr p d = some q ↔ q.wellFormed cpr = true ∧ q.turns * cpr + q.count = p.turns * cpr + p.count - d := by
  rw [position_of_absPos, snapTo, absPos]
  constructor
  · intro h
    split at h
    case isTrue inRange => exact ⟨inRange, cpr_pos_of_absInRange inRange, (Option.some.inj h).symm⟩
    case isFalse => cases h
  · rintro ⟨inRange, -, rfl⟩
    exact if_pos inRange

theorem confirmPosition_of_beyond {cfg : AxisConfig} {d : Int} (h : cfg.tolerance < d.natAbs) (p : Position) :
    confirmPosition cfg p d = none :=
  if_neg (Nat.not_le.mpr h)

theorem confirmPosition_of_check {cfg : AxisConfig} {d : Int} (h : d.natAbs ≤ cfg.tolerance) (hc : cfg.correction = .check)
    (p : Position) : confirmPosition cfg p d = some p := by
  simp [confirmPosition, h, hc]

theorem confirmPosition_of_snap {cfg : AxisConfig} {d : Int} (h : d.natAbs ≤ cfg.tolerance) (hc : cfg.correction = .snap)
    (p : Position) : confirmPosition cfg p d = snapTo cfg.cpr p d := by
  simp [confirmPosition, h, hc]

/-! ### The index event by the reference state in force (R53) -/

/-- The drift that an index event finds on an axis (R55). -/
def AxisRec.drift (r : AxisRec) : Int := driftOf r.cfg.cpr r.refOffset r.pos.count

/-- Without a reference an index event clears the since-index distance alone (R53). -/
theorem indexEvent_of_no_reference {s : State} {a : AxisId}
    (h : (s.axis a).refState = .unreferenced ∨ (s.axis a).refState = .lost) (t : Time) : s.indexEvent a t = s.zeroSince a := by
  rcases h with h | h <;> simp [State.indexEvent, State.judgeIndex, h]

/-- The distance that an establishment clears is cleared by the index event anyway (R53, R54). -/
theorem indexEvent_of_seeking {s : State} {a : AxisId} (h : (s.axis a).refState = .seeking) (t : Time) :
    s.indexEvent a t = (s.establish a ⟨(s.axis a).refTurns, (s.axis a).refOffset⟩).zeroSince a := by
  simp [State.indexEvent, State.judgeIndex, h]

/-- With a reference in force the index event is checked; a drift beyond tolerance lowers the state by one (R55, R58, R59). -/
theorem indexEvent_of_reference {s : State} {a : AxisId}
    (h : (s.axis a).refState = .referenced ∨ (s.axis a).refState = .suspect) (t : Time) :
    s.indexEvent a t
      = (s.checkIndex a t (if (s.axis a).refState = .referenced then .suspect else .lost)).zeroSince a := by
  rcases h with h | h <;> simp [State.indexEvent, State.judgeIndex, h]

theorem checkIndex_of_confirmed {s : State} {a : AxisId} {p : Position}
    (h : confirmPosition (s.axis a).cfg (s.axis a).pos (s.axis a).drift = some p) (t : Time) (st : RefState) :
    s.checkIndex a t st
      = (s.modAxis a (fun r => { r with pos := p, lastDrift := some (s.axis a).drift })).changeReference a .referenced
          (s.axis a).epoch := by
  unfold AxisRec.drift at h
  simp only [State.checkIndex, h]
  rfl

theorem checkIndex_of_unconfirmed {s : State} {a : AxisId}
    (h : confirmPosition (s.axis a).cfg (s.axis a).pos (s.axis a).drift = none) (t : Time) (st : RefState) :
    s.checkIndex a t st
      = (s.modAxis a (fun r => { r with lastDrift := some (s.axis a).drift })).fault a .indexDrift t st := by
  unfold AxisRec.drift at h
  simp only [State.checkIndex, h]
  rfl

/-! ### The cleared distance of an establishment (R54) -/

/-- A hand-over commutes with whatever commutes with the marking of entries (R46, R96, R97). -/
theorem handOver_comm {g : State → State} {a : AxisId}
    (marking : ∀ t st, (g t).setEntryStates a st = g (t.setEntryStates a st)) (s : State) (old new : RefState) :
    (g s).handOver a old new = g (s.handOver a old new) := by
  unfold State.handOver State.armEntries State.holdEntries
  split
  · exact marking s .armed
  · split
    · exact marking s .held
    · rfl

theorem zeroSince_handOver (s : State) (a : AxisId) (old new : RefState) :
    (s.zeroSince a).handOver a old new = (s.handOver a old new).zeroSince a :=
  handOver_comm (g := fun t => t.zeroSince a) (fun _ _ => rfl) s old new

@[simp] theorem zeroSince_zeroSince (s : State) (a : AxisId) : (s.zeroSince a).zeroSince a = s.zeroSince a := by
  simp [State.zeroSince]

theorem zeroSince_putReference (s : State) (a : AxisId) (st : RefState) (ep : BitVec 16) :
    (s.zeroSince a).putReference a st ep = (s.putReference a st ep).zeroSince a := by
  simp [State.zeroSince, State.putReference]

/-- A change of the reference neither reads nor writes the since-index distance (R45, R46). -/
theorem zeroSince_changeReference (s : State) (a : AxisId) (st : RefState) (ep : BitVec 16) :
    (s.zeroSince a).changeReference a st ep = (s.changeReference a st ep).zeroSince a := by
  have keepsState : ((s.zeroSince a).axis a).refState = (s.axis a).refState := by simp [State.zeroSince]
  have keepsEpoch : ((s.zeroSince a).axis a).epoch = (s.axis a).epoch := by simp [State.zeroSince]
  unfold State.changeReference
  rw [keepsState, keepsEpoch, zeroSince_putReference, zeroSince_handOver]
  split
  · rfl
  · simp only [raiseSubscribed_eq]
    rfl

/-- Where the distance is set to 0 in the end, an establishment need not have done it. -/
theorem establish_zeroSince (s : State) (a : AxisId) (p : Position) :
    (s.establish a p).zeroSince a
      = ((s.modAxis a (fun r => { r with pos := p, lastDrift := none })).changeReference a .referenced
          ((s.axis a).epoch + 1#16)).zeroSince a := by
  have first : s.modAxis a (fun r => { r with pos := p, sinceIndex := 0, lastDrift := none })
      = (s.modAxis a (fun r => { r with pos := p, lastDrift := none })).zeroSince a := by
    simp [State.zeroSince]
  rw [State.establish, first, zeroSince_changeReference, zeroSince_zeroSince]

/-- Settles O19: the drift's bounds and residue; then each reference state, and in a state with a reference the outcome of
`confirmPosition`, which in SNAP is the one target in range. -/
theorem indexEventByReferenceState : Obligations.IndexEventByReferenceState := by
  unfold Obligations.IndexEventByReferenceState
  refine ⟨fun cpr offset count hc => ?_, fun s a t => ⟨fun absent => ?_, fun seeking => ?_, fun inForce => ?_⟩⟩
  · obtain ⟨upper, lower⟩ := driftOf_bounds hc offset count
    exact ⟨upper, lower, driftOf_congr cpr offset count⟩
  · exact indexEvent_of_no_reference absent t
  · rw [indexEvent_of_seeking seeking, establish_zeroSince]
    rfl
  · rw [indexEvent_of_reference inForce]
    refine ⟨fun beyond => ?_, fun within => ⟨fun check => ?_, fun snap => ⟨fun noTarget => ?_, fun q target => ?_⟩⟩⟩
    · rw [checkIndex_of_unconfirmed (confirmPosition_of_beyond beyond _)]
      rfl
    · rw [checkIndex_of_confirmed (confirmPosition_of_check within check _)]
      rfl
    · have refused : snapTo (s.axis a).cfg.cpr (s.axis a).pos (s.axis a).drift = none :=
        Option.eq_none_iff_forall_ne_some.mpr (fun q hq => noTarget ⟨q, (snapTo_eq_some_iff _ _ _ _).mp hq⟩)
      rw [checkIndex_of_unconfirmed ((confirmPosition_of_snap within snap _).trans refused)]
      rfl
    · have corrected : snapTo (s.axis a).cfg.cpr (s.axis a).pos (s.axis a).drift = some q :=
        (snapTo_eq_some_iff _ _ _ _).mpr target
      rw [checkIndex_of_confirmed ((confirmPosition_of_snap within snap _).trans corrected)]
      rfl

/-! ### The reference commands (R47 to R51) -/

/-- Taking a request keeps who hears a notice: subscriptions and notice queues stay (R161, R163). -/
theorem popRequest_toldSubscribers (s : State) (p : PortId) (bit : Nat) (n : Notice) :
    (s.popRequest p).toldSubscribers bit n = (s.toldSubscribers bit n).popRequest p := by
  have hearers : ∀ q, ((s.popRequest p).port q).hears bit n = (s.port q).hears bit n := by
    intro q
    rw [popRequest_port]
    split
    case isTrue same => rw [same]; rfl
    case isFalse => rfl
  calc (s.popRequest p).toldSubscribers bit n
      = (s.popRequest p).told (fun q => ((s.popRequest p).port q).hears bit n) n := rfl
    _ = (s.popRequest p).told (fun q => (s.port q).hears bit n) n := by simp only [hearers]
    _ = (s.toldSubscribers bit n).popRequest p := told_popRequest s p _ n

theorem popRequest_handOver (s : State) (p : PortId) (a : AxisId) (old new : RefState) :
    (s.popRequest p).handOver a old new = (s.handOver a old new).popRequest p :=
  handOver_comm (g := fun t => t.popRequest p) (fun _ _ => rfl) s old new

/-- A change of the reference commutes with the taking of the request. -/
theorem popRequest_changeReference (s : State) (p : PortId) (a : AxisId) (st : RefState) (ep : BitVec 16) :
    (s.popRequest p).changeReference a st ep = (s.changeReference a st ep).popRequest p := by
  have put : (s.popRequest p).putReference a st ep = (s.putReference a st ep).popRequest p := popRequest_modAxis s p a _
  unfold State.changeReference
  rw [popRequest_axis, put, popRequest_handOver]
  split
  · rfl
  · rw [raiseSubscribed_eq, raiseSubscribed_eq, popRequest_toldSubscribers]

theorem popRequest_establish (s : State) (p : PortId) (a : AxisId) (q : Position) :
    (s.popRequest p).establish a q = (s.establish a q).popRequest p := by
  unfold State.establish
  rw [popRequest_modAxis, popRequest_changeReference, popRequest_axis]

theorem popRequest_armReference (s : State) (p : PortId) (a : AxisId) (o : Nat) (n : Int) :
    (s.popRequest p).armReference a o n = (s.armReference a o n).popRequest p := by
  unfold State.armReference
  rw [popRequest_modAxis, popRequest_changeReference, popRequest_axis]

theorem beBytes_two (n : Nat) : beBytes 2 n = [BitVec.ofNat 8 (n / 256), BitVec.ofNat 8 n] := by
  simp [beBytes]

/-- An establishment adds one to the epoch (R50, R64). -/
theorem establish_epoch (s : State) (a : AxisId) (q : Position) :
    ((s.establish a q).axis a).epoch = (s.axis a).epoch + 1#16 := by
  simp [State.establish, changeReference_axis]

theorem isCounting_iff (s : State) (a : AxisId) : s.isCounting a = true ↔ (s.axis a).run = .counting := by
  simp [State.isCounting]

theorem needState_of_met {cond : State → Bool} {s : State} (h : cond s = true) (act : State → State × Reply) :
    needState cond act s = act s :=
  if_pos h

theorem needValues_of_met {cond : State → Bool} {s : State} (h : cond s = true) (act : State → State × Reply) :
    needValues cond act s = act s :=
  if_pos h

section Accepted

variable {p : PortId} {s : State} {args : List Byte} {a : AxisId}

/-- ARM_REFERENCE that passes the four checks of R26: claim, COUNTING in QUAD_INDEX, offset below CPR (R47, R48). -/
theorem armReferenceReply_of_accepted {o : Nat} {n : Int} (parsed : parseArm args = some (a, o, n))
    (holder : (s.claim (.axis a)).holder = some p) (counting : (s.axis a).run = .counting)
    (mode : (s.axis a).cfg.mode = .quadIndex) (offset : o < (s.axis a).cfg.cpr) :
    armReferenceReply p s args = ((s.armReference a o n).used (.axis a), .ok []) := by
  rw [armReferenceReply, withArgs_of_parse parsed, needAxis_of_holder holder,
    needState_of_met (by simp [isCounting_iff, counting, mode]), needValues_of_met (decide_eq_true offset), acceptAxis_eq]

theorem dropReferenceReply_of_accepted (parsed : parseAxis args = some a)
    (holder : (s.claim (.axis a)).holder = some p) (counting : (s.axis a).run = .counting) :
    dropReferenceReply p s args = ((s.changeReference a .unreferenced (s.axis a).epoch).used (.axis a), .ok []) := by
  rw [dropReferenceReply, withArgs_of_parse parsed, needAxis_of_holder holder,
    needState_of_met ((isCounting_iff s a).mpr counting), acceptAxis_eq]

/-- SET_REFERENCE that passes the checks answers with the epoch that the establishment gives (R50). -/
theorem setReferenceReply_of_accepted {q : Position} (parsed : parseSetReference args = some (a, q))
    (holder : (s.claim (.axis a)).holder = some p) (counting : (s.axis a).run = .counting)
    (count : q.count < (s.axis a).cfg.cpr) :
    setReferenceReply p s args
      = ((s.establish a q).used (.axis a), .ok (beBytes 2 ((s.axis a).epoch + 1#16).toNat)) := by
  rw [setReferenceReply, withArgs_of_parse parsed, needAxis_of_holder holder,
    needState_of_met ((isCounting_iff s a).mpr counting), needValues_of_met (decide_eq_true count), acceptAxis_eq,
    establish_epoch]

end Accepted

/-- Settles O17: each command passes its checks, and its effect commutes with the taking of the request. -/
theorem referenceCommandsTakeEffect : Obligations.ReferenceCommandsTakeEffect := by
  unfold Obligations.ReferenceCommandsTakeEffect
  refine ⟨fun s p tag args a holder counting => ⟨fun o n asked parsed mode offset => ?_, fun asked single => ?_⟩,
    fun s p tag args a q asked parsed holder counting count => ?_⟩
  · refine congrArg Host.Outcome.next (takeRequest_answered asked rfl ?_)
    rw [armReferenceReply_of_accepted (s := s.popRequest p) parsed holder counting mode offset, popRequest_armReference,
      popRequest_used]
    rfl
  · refine congrArg Host.Outcome.next (takeRequest_answered asked rfl ?_)
    rw [dropReferenceReply_of_accepted (s := s.popRequest p) (parseAxis_eq_some.mpr single) holder counting,
      popRequest_changeReference, popRequest_used]
    rfl
  · refine congrArg Host.Outcome.next (takeRequest_answered asked rfl ?_)
    rw [setReferenceReply_of_accepted (s := s.popRequest p) parsed holder counting count, popRequest_establish,
      popRequest_used, beBytes_two]
    rfl

end Sys2Proof.Machine
end

section
/-! PROOFS. The compare schedule: what a handle names (R83), the three cancelling and reading commands, the list of an axis
as an insertion sort of its entries (R85), and LIST_ENTRIES. -/

namespace Sys2Proof.Machine

/-! ### Handle and list arguments (R83, R95, R173) -/

theorem slotOfByte_eq_some {b : Byte} {i : SlotId} : slotOfByte b = some i ↔ b = BitVec.ofNat 8 i.1 := by
  rw [← BitVec.toNat_inj, BitVec.toNat_ofNat, Nat.mod_eq_of_lt (by omega), slotOfByte]
  split
  next => rw [Option.some.injEq, Fin.ext_iff]
  next high =>
    simp only [reduceCtorEq, false_iff]
    omega

theorem parseHandle_eq_some {args : List Byte} {h : Handle} :
    parseHandle args = some h ↔ args = [BitVec.ofNat 8 h.slot.1, h.gen] := by
  constructor
  · intro parsed
    unfold parseHandle at parsed
    split at parsed
    next b g =>
      simp only [Option.bind_eq_bind, Option.bind_eq_some_iff, slotOfByte_eq_some, Option.some.injEq] at parsed
      obtain ⟨i, rfl, rfl⟩ := parsed
      rfl
    next => cases parsed
  · rintro rfl
    simp [parseHandle, slotOfByte_eq_some.mpr rfl]

theorem parseHandle_bytes (i : SlotId) (g : Byte) : parseHandle [BitVec.ofNat 8 i.1, g] = some ⟨i, g⟩ :=
  parseHandle_eq_some.mpr rfl

theorem parseHandle_eq_none {args : List Byte} :
    parseHandle args = none ↔ ∀ (i : SlotId) (g : Byte), args ≠ [BitVec.ofNat 8 i.1, g] := by
  rw [Option.eq_none_iff_forall_ne_some]
  exact ⟨fun h i g e => h ⟨i, g⟩ (parseHandle_eq_some.mpr e), fun h x e => h x.slot x.gen (parseHandle_eq_some.mp e)⟩

theorem parseList_bytes (a : AxisId) (n : Byte) : parseList [BitVec.ofNat 8 a.1, n] = some (a, n.toNat) := by
  have axis : axisOfByte (BitVec.ofNat 8 a.1) = some a := parseAxis_byte a
  simp [parseList, axis]

theorem parseList_eq_none {args : List Byte} (h : ∀ (a : AxisId) (n : Byte), args ≠ [BitVec.ofNat 8 a.1, n]) :
    parseList args = none := by
  unfold parseList
  split
  next b n =>
    have noAxis : axisOfByte b = none :=
      parseAxis_eq_none (args := [b]).mpr fun a e => h a n (congrArg (· ++ [n]) e)
    rw [noAxis]
    rfl
  next => rfl

/-! ### Refusals of a taken request -/

theorem withArgs_of_no_parse {α : Type} {parse : List Byte → Option α} {args : List Byte} (h : parse args = none)
    (act : State → α → State × Reply) (s : State) : withArgs parse act s args = (s, .refused .badArgument) := by
  simp [withArgs, h]

/-- A request whose arguments have the wrong form is BAD_ARGUMENT, whatever its command does (R153, R173). -/
theorem takeRequest_bad_form {α : Type} {parse : List Byte → Option α} {act : State → α → State × Reply} {s : State}
    {p : PortId} {c : Cmd} {cmd tag : Byte} {args : List Byte} (asked : s.asks p cmd tag args)
    (command : Cmd.ofCode cmd = some c) (h : parse args = none) :
    s.takeRequest p c (withArgs parse act) = s.answered p tag [0x03#8] :=
  takeRequest_answered asked command (withArgs_of_no_parse h act _)

/-! ### What a handle names (R83) -/

section Resolve

variable {s : State} {p : PortId} {i : SlotId} {g : Byte}

theorem resolve_of_stale (h : (s.slot i).gen ≠ g) : s.resolve p ⟨i, g⟩ = .error .staleHandle := if_pos h

theorem resolve_of_free (gen : (s.slot i).gen = g) (free : (s.slot i).entry = none) :
    s.resolve p ⟨i, g⟩ = .error .notFound := by
  simp [State.resolve, gen, free]

theorem resolve_of_stranger {e : Entry} (gen : (s.slot i).gen = g) (entry : (s.slot i).entry = some e) (owner : e.owner ≠ p) :
    s.resolve p ⟨i, g⟩ = .error .notFound := by
  simp [State.resolve, gen, entry, owner]

theorem resolve_of_owner {e : Entry} (gen : (s.slot i).gen = g) (entry : (s.slot i).entry = some e) (owner : e.owner = p) :
    s.resolve p ⟨i, g⟩ = .ok e := by
  simp [State.resolve, gen, entry, owner]

end Resolve

theorem withEntry_of_error {s : State} {p : PortId} {h : Handle} {code : ResultCode} (e : s.resolve p h = .error code)
    (act : State → Handle → Entry → State × Reply) : withEntry p act s h = (s, .refused code) := by
  simp [withEntry, e]

theorem withEntry_of_ok {s : State} {p : PortId} {h : Handle} {x : Entry} (e : s.resolve p h = .ok x)
    (act : State → Handle → Entry → State × Reply) : withEntry p act s h = act s h x := by
  simp [withEntry, e]

/-- A handle that names no entry of the port gets its refusal, whatever the command would do with an entry (R83). -/
theorem takeRequest_bad_handle {act : State → Handle → Entry → State × Reply} {s : State} {p : PortId} {c : Cmd}
    {cmd tag g : Byte} {i : SlotId} {code : ResultCode} (asked : s.asks p cmd tag [BitVec.ofNat 8 i.1, g])
    (command : Cmd.ofCode cmd = some c) (refusal : s.resolve p ⟨i, g⟩ = .error code) :
    s.takeRequest p c (withArgs parseHandle (withEntry p act)) = s.answered p tag [resultByte code] := by
  refine takeRequest_answered asked command ?_
  rw [withArgs_of_parse (parseHandle_bytes i g), withEntry_of_error (s := s.popRequest p) refusal]
  rfl

/-- CANCEL and READ_ENTRY both resolve their handle first and then act on the entry it names (R83). -/
theorem exec_handle_command (s : State) (p : PortId) :
    ∀ x ∈ [(Instr.cancel p, 0x31#8), (Instr.readEntry p, 0x33#8)], ∃ c act, Cmd.ofCode x.2 = some c
      ∧ exec x.1 s = .next (s.takeRequest p c (withArgs parseHandle (withEntry p act))) := by
  intro x hx
  rw [List.mem_pair] at hx
  rcases hx with rfl | rfl
  · exact ⟨.cancel, _, rfl, rfl⟩
  · exact ⟨.readEntry, _, rfl, rfl⟩

/-! ### Freeing (R84, R91, R93) -/

/-- The state after the entry of one slot is freed, whole (R84). -/
theorem freeEntry_of_entry {s : State} {i : SlotId} {e : Entry} (h : (s.slot i).entry = some e) :
    s.freeEntry i = { s with
      pool := upd s.pool i ⟨(s.slot i).gen + 1#8, none⟩
      booked := upd s.booked e.owner (s.booked.get e.owner - 1) } := by
  simp only [State.freeEntry, h]
  rfl

theorem popRequest_freeEntry (s : State) (p : PortId) (i : SlotId) :
    (s.popRequest p).freeEntry i = (s.freeEntry i).popRequest p := by
  cases h : (s.slot i).entry with
  | none => simp only [State.freeEntry, State.popRequest, modPort_slot, h]
  | some e =>
    rw [freeEntry_of_entry h, freeEntry_of_entry (s := s.popRequest p) h]
    rfl

theorem cancelReply_of_owner {s : State} {p : PortId} {i : SlotId} {g : Byte} {e : Entry}
    (h : s.resolve p ⟨i, g⟩ = .ok e) :
    cancelReply p s [BitVec.ofNat 8 i.1, g] = (s.freeEntry i, .ok (beBytes 2 e.fireCount)) := by
  rw [cancelReply, withArgs_of_parse (parseHandle_bytes i g), withEntry_of_ok h]

theorem readEntryReply_of_owner {s : State} {p : PortId} {i : SlotId} {g : Byte} {e : Entry}
    (h : s.resolve p ⟨i, g⟩ = .ok e) :
    readEntryReply p s [BitVec.ofNat 8 i.1, g] = (s, .ok (entryRecordBytes ⟨i, g⟩ e)) := by
  rw [readEntryReply, withArgs_of_parse (parseHandle_bytes i g), withEntry_of_ok h]

/-- CANCEL_AXIS frees the port's entries on the axis one after another, which is all of them at once (R93). -/
theorem cancelAxisReply_axis (p : PortId) (s : State) (a : AxisId) :
    cancelAxisReply p s [BitVec.ofNat 8 a.1]
      = (s.withoutEntries (fun e => decide (e.owner = p) && decide (e.axis = a)),
          .ok [byte (s.ownedWhere p (fun e => decide (e.owner = p) && decide (e.axis = a)))]) := by
  have number : s.ownedWhere p (fun e => decide (e.owner = p) && decide (e.axis = a)) = (s.ownOn p a).length := by
    simp [ownedWhere_eq_length, State.ownOn]
  rw [cancelAxisReply, withArgs_of_parse (parseAxis_byte a), number, State.ownOn, freeEntries_slotsWhere]

/-- Settles O28: the refusals for both commands at once; then each command's reply on an entry of the port, whose effect
commutes with the taking of the request. -/
theorem handlesResolveAndCancelsFree : Obligations.HandlesResolveAndCancelsFree := by
  unfold Obligations.HandlesResolveAndCancelsFree
  intro s p tag args
  refine ⟨fun x hx asked => ?_, fun i g e named gen entry owner => ?_, fun asked => ⟨fun form => ?_, fun a single => ?_⟩⟩
  · obtain ⟨c, act, command, takes⟩ := exec_handle_command s p x hx
    refine ⟨fun form => takes.trans (congrArg _ (takeRequest_bad_form asked command (parseHandle_eq_none.mpr form))), ?_⟩
    rintro i g rfl
    have refused {code : ResultCode} (h : s.resolve p ⟨i, g⟩ = .error code) :
        exec x.1 s = .next (s.answered p tag [resultByte code]) :=
      takes.trans (congrArg _ (takeRequest_bad_handle asked command h))
    exact ⟨fun stale => refused (resolve_of_stale stale), fun gen free => refused (resolve_of_free gen free),
      fun e gen entry stranger => refused (resolve_of_stranger gen entry stranger)⟩
  · have resolved : (s.popRequest p).resolve p ⟨i, g⟩ = .ok e := resolve_of_owner gen entry owner
    subst named
    refine ⟨fun asked => congrArg Host.Outcome.next (takeRequest_answered asked rfl ?_),
      fun asked => congrArg Host.Outcome.next (takeRequest_answered asked rfl (readEntryReply_of_owner resolved))⟩
    rw [cancelReply_of_owner resolved, popRequest_freeEntry, freeEntry_of_entry entry, gen, owner]
    rfl
  · exact congrArg Host.Outcome.next (takeRequest_bad_form asked rfl (parseAxis_eq_none.mpr form))
  · subst single
    exact congrArg Host.Outcome.next (takeRequest_answered asked rfl (cancelAxisReply_axis p (s.popRequest p) a))

/-! ### The list of an axis (R85) -/

/-- The order of an axis's list on slots with their entries. -/
abbrev ListedBefore (cpr : Nat) (x y : SlotId × Entry) : Prop := entryLe cpr x.2 y.2 = true

theorem entryLe_iff (cpr : Nat) (x y : Entry) :
    entryLe cpr x y = true ↔ absPos cpr x.target < absPos cpr y.target
      ∨ absPos cpr x.target = absPos cpr y.target ∧ x.serial ≤ y.serial := by
  simp [entryLe]

theorem listedBefore_total (cpr : Nat) : Std.Total (ListedBefore cpr) := by
  refine ⟨fun x y => ?_⟩
  simp only [ListedBefore, entryLe_iff]
  omega

theorem listedBefore_trans (cpr : Nat) : IsTrans (SlotId × Entry) (ListedBefore cpr) := by
  refine ⟨fun x y z hxy hyz => ?_⟩
  simp only [ListedBefore, entryLe_iff] at hxy hyz ⊢
  omega

theorem insertEntry_eq_orderedInsert (cpr : Nat) (x : SlotId × Entry) (l : List (SlotId × Entry)) :
    insertEntry cpr x l = l.orderedInsert (ListedBefore cpr) x := by
  induction l with
  | nil => rfl
  | cons y rest ih => rw [insertEntry, List.orderedInsert, ih]

/-- The model's sort is the library's insertion sort. -/
theorem sortEntries_eq_insertionSort (cpr : Nat) (l : List (SlotId × Entry)) :
    sortEntries cpr l = l.insertionSort (ListedBefore cpr) := by
  induction l with
  | nil => rfl
  | cons x rest ih => rw [sortEntries, insertEntry_eq_orderedInsert, ih, List.insertionSort_cons]

theorem axisList_perm_entriesOn (s : State) (a : AxisId) : (s.axisList a).Perm (s.entriesOn a) := by
  rw [State.axisList, sortEntries_eq_insertionSort]
  exact List.perm_insertionSort _ _

theorem axisList_sorted (s : State) (a : AxisId) : (s.axisList a).Pairwise (ListedBefore (s.axis a).cfg.cpr) := by
  have := listedBefore_total (s.axis a).cfg.cpr
  have := listedBefore_trans (s.axis a).cfg.cpr
  rw [State.axisList, sortEntries_eq_insertionSort]
  exact List.pairwise_insertionSort _ _

theorem mem_entriesOn {s : State} {a : AxisId} {i : SlotId} {e : Entry} :
    (i, e) ∈ s.entriesOn a ↔ (s.slot i).entry = some e ∧ e.axis = a := by
  simp only [State.entriesOn, List.mem_filterMap, List.mem_finRange, true_and]
  constructor
  · rintro ⟨j, h⟩
    split at h
    next f entry =>
      rw [Option.ite_none_right_eq_some, Option.some.injEq, Prod.mk.injEq] at h
      obtain ⟨axis, rfl, rfl⟩ := h
      exact ⟨entry, axis⟩
    next => cases h
  · rintro ⟨entry, axis⟩
    exact ⟨i, by simp [entry, axis]⟩

/-- The slots of an axis's entries, in slot order. -/
theorem entriesOn_slots (s : State) (a : AxisId) :
    (s.entriesOn a).map Prod.fst = s.slotsWhere (fun e => decide (e.axis = a)) := by
  rw [State.entriesOn, State.slotsWhere, List.map_filterMap, ← List.filterMap_eq_filter]
  congr 1
  funext i
  cases h : (s.slot i).entry with
  | none => simp [Option.guard, h]
  | some e => by_cases axis : e.axis = a <;> simp [Option.guard, h, axis]

theorem mem_axisList {s : State} {a : AxisId} {i : SlotId} {e : Entry} :
    (i, e) ∈ s.axisList a ↔ (s.slot i).entry = some e ∧ e.axis = a :=
  (axisList_perm_entriesOn s a).mem_iff.trans mem_entriesOn

/-- No slot is listed twice. -/
theorem axisList_slots_nodup (s : State) (a : AxisId) : ((s.axisList a).map Prod.fst).Nodup := by
  rw [((axisList_perm_entriesOn s a).map Prod.fst).nodup_iff, entriesOn_slots]
  exact slotsWhere_nodup s _

/-! ### LIST_ENTRIES (R95) -/

/-- The data of LIST_ENTRIES over the listed entries themselves: a handle is the slot with its generation (R80, R95). -/
theorem listData_listedHandles (s : State) (p : PortId) (a : AxisId) (start : Nat) :
    listData (s.listedHandles p a) start
      = [byte ((s.axisList a).filter (fun x => decide (x.2.owner = p))).length,
          byte ((((s.axisList a).filter (fun x => decide (x.2.owner = p))).drop start).take 16).length]
        ++ ((((s.axisList a).filter (fun x => decide (x.2.owner = p))).drop start).take 16).flatMap
            (fun x => handleBytes (s.handleOf x.1)) := by
  simp only [listData, State.listedHandles, ← List.map_drop, ← List.map_take, List.length_map, List.flatMap_map]

/-- Settles O29: the list is an insertion sort of the entries of the axis; LIST_ENTRIES reads it and changes nothing. -/
theorem axisListIsOrderedAndListed : Obligations.AxisListIsOrderedAndListed := by
  unfold Obligations.AxisListIsOrderedAndListed
  refine ⟨fun s a => ⟨fun i e => mem_axisList, axisList_slots_nodup s a,
    (axisList_sorted s a).imp (fun h => (entryLe_iff _ _ _).mp h)⟩, fun s p tag args asked => ⟨fun form => ?_, ?_⟩⟩
  · exact congrArg Host.Outcome.next (takeRequest_bad_form asked rfl (parseList_eq_none form))
  · rintro a n rfl
    refine congrArg Host.Outcome.next (takeRequest_answered asked rfl ?_)
    rw [listEntriesReply, withArgs_of_parse (parseList_bytes a n), listData_listedHandles]
    rfl

end Sys2Proof.Machine
end

section
/-! PROOFS. The snapshot table: the slot of a capture number (R124, R132), the snapshots a port reads with their smallest
number (R133) and all their numbers in order (R136), and the four commands that read, list and release. -/

namespace Sys2Proof.Machine

/-! ### Argument bytes (R173) -/

theorem parseNothing_eq_none {args : List Byte} (h : args ≠ []) : parseNothing args = none := by
  cases args with
  | nil => exact absurd rfl h
  | cons b rest => rfl

theorem parseNumber_of_six {args : List Byte} (h : args.length = 6) : parseNumber args = some (beNat args) := by
  match args, h with
  | [_, _, _, _, _, _], _ => rfl

theorem parseNumber_eq_none {args : List Byte} (h : args.length ≠ 6) : parseNumber args = none := by
  unfold parseNumber
  split
  next => exact absurd rfl h
  next => rfl

/-! ### The slot of a capture number (R124, R132) -/

theorem findSnap_spec {s : State} {n : Nat} {i : Fin 16} (h : s.findSnap n = some i) :
    ∃ y, s.snaps.get i = some y ∧ y.number = n := by
  have named := List.find?_some h
  split at named
  next y held => exact ⟨y, held, of_decide_eq_true named⟩
  next => cases named

theorem findSnap_eq_none {s : State} {n : Nat} :
    s.findSnap n = none ↔ ∀ i y, s.snaps.get i = some y → y.number ≠ n := by
  constructor
  · intro missing i y held
    have other := List.find?_eq_none.mp missing i (List.mem_finRange i)
    simpa [held] using other
  · intro absent
    rw [Option.eq_none_iff_forall_ne_some]
    intro i found
    obtain ⟨y, held, number⟩ := findSnap_spec found
    exact absent i y held number

/-- Distinct numbers make the slot found the only one there is (R124). -/
theorem findSnap_of_held {s : State} (law : s.NumberLaw) {i : Fin 16} {y : Snapshot} (held : s.snaps.get i = some y) :
    s.findSnap y.number = some i := by
  obtain ⟨-, distinct, -⟩ := law
  cases found : s.findSnap y.number with
  | none => exact absurd rfl (findSnap_eq_none.mp found i y held)
  | some j =>
    obtain ⟨z, heldToo, number⟩ := findSnap_spec found
    rw [distinct j i z y heldToo held number]

/-! ### The checks of R132 -/

section Checks

variable {s : State} {p : PortId} {n : Nat}

theorem withSnapshot_of_absent (h : ∀ i y, s.snaps.get i = some y → y.number ≠ n)
    (act : State → Fin 16 → Snapshot → State × Reply) : withSnapshot p act s n = (s, .refused .notFound) := by
  simp [withSnapshot, findSnap_eq_none.mpr h]

theorem withSnapshot_of_stranger {i : Fin 16} {y : Snapshot} (law : s.NumberLaw) (held : s.snaps.get i = some y)
    (number : y.number = n) (stranger : hasPort y.readers p = false) (act : State → Fin 16 → Snapshot → State × Reply) :
    withSnapshot p act s n = (s, .refused .notReader) := by
  subst number
  simp [withSnapshot, findSnap_of_held law held, held, stranger]

theorem withSnapshot_of_reader {i : Fin 16} {y : Snapshot} (law : s.NumberLaw) (held : s.snaps.get i = some y)
    (number : y.number = n) (reader : hasPort y.readers p = true) (act : State → Fin 16 → Snapshot → State × Reply) :
    withSnapshot p act s n = act s i y := by
  subst number
  simp [withSnapshot, findSnap_of_held law held, held, reader]

end Checks

/-- A capture number that gives its port no snapshot to act on is refused, whatever the command would do (R132). -/
theorem takeRequest_bad_number {act : State → Fin 16 → Snapshot → State × Reply} {s : State} {p : PortId} {c : Cmd}
    {cmd tag : Byte} {args : List Byte} {code : ResultCode} (asked : s.asks p cmd tag args)
    (command : Cmd.ofCode cmd = some c) (six : args.length = 6)
    (refusal : withSnapshot p act (s.popRequest p) (beNat args) = (s.popRequest p, .refused code)) :
    s.takeRequest p c (withArgs parseNumber (withSnapshot p act)) = s.answered p tag [resultByte code] := by
  refine takeRequest_answered asked command ?_
  rw [withArgs_of_parse (parseNumber_of_six six), refusal]
  rfl

/-- READ_SNAPSHOT and RELEASE_SNAPSHOT both look their number up first and then act on the slot it names (R132). -/
theorem exec_number_command (s : State) (p : PortId) :
    ∀ x ∈ [(Instr.readSnapshot p, 0x42#8), (Instr.releaseSnapshot p, 0x44#8)], ∃ c act, Cmd.ofCode x.2 = some c
      ∧ exec x.1 s = .next (s.takeRequest p c (withArgs parseNumber (withSnapshot p act))) := by
  intro x hx
  rw [List.mem_pair] at hx
  rcases hx with rfl | rfl
  · exact ⟨.readSnapshot, _, rfl, rfl⟩
  · exact ⟨.releaseSnapshot, _, rfl, rfl⟩

/-! ### Releasing (R134) -/

/-- The state after a reader leaves a HELD slot, whole. -/
theorem releaseSnap_of_held {s : State} {i : Fin 16} {y : Snapshot} (held : s.snaps.get i = some y) (p : PortId) :
    s.releaseSnap i p = { s with
      snaps := upd s.snaps i (if dropPort y.readers p = 0#3 then none else some { y with readers := dropPort y.readers p })
      holds := upd s.holds p (s.holds.get p - 1) } := by
  rw [State.releaseSnap, held, leaveReaders]

/-- Taking a request and leaving a reader set touch different parts of the state. -/
theorem popRequest_releaseSnap (s : State) (p q : PortId) (i : Fin 16) :
    (s.popRequest p).releaseSnap i q = (s.releaseSnap i q).popRequest p := rfl

theorem readSnapshotReply_of_reader {s : State} {p : PortId} {args : List Byte} {i : Fin 16} {y : Snapshot}
    (law : s.NumberLaw) (six : args.length = 6) (held : s.snaps.get i = some y) (number : y.number = beNat args)
    (reader : hasPort y.readers p = true) : readSnapshotReply p s args = (s, .ok (snapshotBytes p y)) := by
  rw [readSnapshotReply, withArgs_of_parse (parseNumber_of_six six), withSnapshot_of_reader law held number reader]

theorem releaseSnapshotReply_of_reader {s : State} {p : PortId} {args : List Byte} {i : Fin 16} {y : Snapshot}
    (law : s.NumberLaw) (six : args.length = 6) (held : s.snaps.get i = some y) (number : y.number = beNat args)
    (reader : hasPort y.readers p = true) :
    releaseSnapshotReply p s args
      = (s.releaseSnap i p, .ok [if dropPort y.readers p = 0#3 then 1#8 else 0#8]) := by
  rw [releaseSnapshotReply, withArgs_of_parse (parseNumber_of_six six), withSnapshot_of_reader law held number reader]
  simp [yesNoByte]

/-! ### The snapshots a port reads -/

theorem heldBy_eq_filterMap (s : State) (p : PortId) :
    s.heldBy p = (List.finRange 16).filterMap (fun i => (s.snaps.get i).filter (fun x => hasPort x.readers p)) := by
  rw [State.heldBy]
  congr 1
  funext i
  cases s.snaps.get i with
  | none => rfl
  | some x => rfl

theorem mem_heldBy {s : State} {p : PortId} {y : Snapshot} :
    y ∈ s.heldBy p ↔ ∃ i, s.snaps.get i = some y ∧ hasPort y.readers p = true := by
  simp only [heldBy_eq_filterMap, List.mem_filterMap, List.mem_finRange, true_and, Option.filter_eq_some_iff]

/-- No capture number occurs twice among the snapshots of a port (R124). -/
theorem heldBy_numbers_nodup {s : State} (law : s.NumberLaw) (p : PortId) : ((s.heldBy p).map Snapshot.number).Nodup := by
  obtain ⟨-, distinct, -⟩ := law
  rw [heldBy_eq_filterMap, List.map_filterMap]
  refine List.Nodup.filterMap (fun i j n hi hj => ?_) (List.nodup_finRange 16)
  simp only [Option.mem_def, Option.map_eq_some_iff, Option.filter_eq_some_iff] at hi hj
  obtain ⟨x, ⟨heldX, -⟩, rfl⟩ := hi
  obtain ⟨y, ⟨heldY, -⟩, number⟩ := hj
  exact distinct i j x y heldX heldY number.symm

/-! ### The smallest number (R133) -/

/-- The model's search for the oldest snapshot is the library's search for the smallest number. -/
theorem oldestOf_eq_argmin (l : List Snapshot) : oldestOf l = l.argmin Snapshot.number := by
  induction l with
  | nil => rfl
  | cons x rest ih =>
    rw [oldestOf, ih, List.argmin_cons]
    cases rest.argmin Snapshot.number with
    | none => rfl
    | some y => grind [olderSnap]

theorem oldestOf_heldBy_eq_none {s : State} {p : PortId}
    (h : ∀ i y, s.snaps.get i = some y → hasPort y.readers p = false) : oldestOf (s.heldBy p) = none := by
  rw [oldestOf_eq_argmin, List.argmin_eq_none, List.eq_nil_iff_forall_not_mem]
  intro y listed
  obtain ⟨i, held, reader⟩ := mem_heldBy.mp listed
  exact absurd reader (by simp [h i y held])

/-- The oldest snapshot a port reads is the one of smallest number, distinct numbers leaving no tie (R124, R133). -/
theorem oldestOf_heldBy_of_least {s : State} {p : PortId} {i : Fin 16} {y : Snapshot} (law : s.NumberLaw)
    (held : s.snaps.get i = some y) (reader : hasPort y.readers p = true)
    (least : ∀ j z, s.snaps.get j = some z → hasPort z.readers p = true → y.number ≤ z.number) :
    oldestOf (s.heldBy p) = some y := by
  obtain ⟨-, distinct, -⟩ := law
  have listed : y ∈ s.heldBy p := mem_heldBy.mpr ⟨i, held, reader⟩
  rw [oldestOf_eq_argmin]
  cases found : (s.heldBy p).argmin Snapshot.number with
  | none => simp [List.argmin_eq_none.mp found] at listed
  | some z =>
    obtain ⟨j, heldToo, readerToo⟩ := mem_heldBy.mp (List.argmin_mem found)
    have same : z.number = y.number :=
      le_antisymm (List.le_of_mem_argmin listed found) (least j z heldToo readerToo)
    have slot : j = i := distinct j i z y heldToo held same
    rw [← heldToo, slot, held]

theorem readOldestReply_of_none {s : State} {p : PortId} (h : oldestOf (s.heldBy p) = none) :
    readOldestReply p s [] = (s, .refused .notFound) := by
  simp [readOldestReply, withArgs, parseNothing, h]

theorem readOldestReply_of_some {s : State} {p : PortId} {y : Snapshot} (h : oldestOf (s.heldBy p) = some y) :
    readOldestReply p s [] = (s, .ok (snapshotBytes p y)) := by
  simp [readOldestReply, withArgs, parseNothing, h]

/-! ### All numbers in increasing order (R136) -/

theorem insertNumber_eq_orderedInsert (n : Nat) (l : List Nat) : insertNumber n l = l.orderedInsert (· ≤ ·) n := by
  induction l with
  | nil => rfl
  | cons m rest ih => rw [insertNumber, List.orderedInsert, ih]

/-- The model's sort of capture numbers is the library's insertion sort. -/
theorem sortNumbers_eq_insertionSort (l : List Nat) : sortNumbers l = l.insertionSort (· ≤ ·) := by
  induction l with
  | nil => rfl
  | cons n rest ih => rw [sortNumbers, insertNumber_eq_orderedInsert, ih, List.insertionSort_cons]

theorem heldNumbers_perm (s : State) (p : PortId) : (s.heldNumbers p).Perm ((s.heldBy p).map Snapshot.number) := by
  rw [State.heldNumbers, sortNumbers_eq_insertionSort]
  exact List.perm_insertionSort _ _

theorem mem_heldNumbers {s : State} {p : PortId} {n : Nat} :
    n ∈ s.heldNumbers p ↔ ∃ i y, s.snaps.get i = some y ∧ hasPort y.readers p = true ∧ y.number = n := by
  rw [(heldNumbers_perm s p).mem_iff, List.mem_map]
  constructor
  · rintro ⟨y, listed, number⟩
    obtain ⟨i, held, reader⟩ := mem_heldBy.mp listed
    exact ⟨i, y, held, reader, number⟩
  · rintro ⟨i, y, held, reader, number⟩
    exact ⟨y, mem_heldBy.mpr ⟨i, held, reader⟩, number⟩

theorem heldNumbers_increasing {s : State} (law : s.NumberLaw) (p : PortId) : (s.heldNumbers p).Pairwise (· < ·) := by
  have sorted : (s.heldNumbers p).Pairwise (· ≤ ·) := by
    rw [State.heldNumbers, sortNumbers_eq_insertionSort]
    exact List.pairwise_insertionSort _ _
  have nodup : (s.heldNumbers p).Nodup := (heldNumbers_perm s p).nodup_iff.mpr (heldBy_numbers_nodup law p)
  exact (sorted.and nodup).imp fun ⟨le, ne⟩ => lt_of_le_of_ne le ne

/-- Settles O36: the refusals for both number commands at once; then what each command answers on the snapshots the port
reads, whose effect commutes with the taking of the request. -/
theorem snapshotsAreReadListedAndReleased : Obligations.SnapshotsAreReadListedAndReleased := by
  unfold Obligations.SnapshotsAreReadListedAndReleased
  intro s p tag args law
  have lawTaken : (s.popRequest p).NumberLaw := law
  refine ⟨fun x hx asked => ?_, fun i y six held number reader => ⟨fun asked => ?_, fun asked => ?_⟩,
    fun asked => ⟨fun form => ?_, ?_, ?_⟩, fun asked => ⟨fun form => ?_, ?_⟩⟩
  · obtain ⟨c, act, command, takes⟩ := exec_number_command s p x hx
    have refused {code : ResultCode} (six : args.length = 6)
        (h : withSnapshot p act (s.popRequest p) (beNat args) = (s.popRequest p, .refused code)) :
        exec x.1 s = .next (s.answered p tag [resultByte code]) :=
      takes.trans (congrArg _ (takeRequest_bad_number asked command six h))
    exact ⟨fun form => takes.trans (congrArg _ (takeRequest_bad_form asked command (parseNumber_eq_none form))),
      fun six absent => refused six (withSnapshot_of_absent (s := s.popRequest p) absent act),
      fun i y six held number stranger => refused six (withSnapshot_of_stranger lawTaken held number stranger act)⟩
  · exact congrArg Host.Outcome.next
      (takeRequest_answered asked rfl (readSnapshotReply_of_reader lawTaken six held number reader))
  · refine congrArg Host.Outcome.next (takeRequest_answered asked rfl ?_)
    rw [releaseSnapshotReply_of_reader lawTaken six held number reader, popRequest_releaseSnap, releaseSnap_of_held held]
    rfl
  · exact congrArg Host.Outcome.next (takeRequest_bad_form asked rfl (parseNothing_eq_none form))
  · rintro rfl unread
    exact congrArg Host.Outcome.next (takeRequest_answered asked rfl
      (readOldestReply_of_none (s := s.popRequest p) (oldestOf_heldBy_eq_none unread)))
  · rintro i y rfl held reader least
    exact congrArg Host.Outcome.next (takeRequest_answered asked rfl
      (readOldestReply_of_some (s := s.popRequest p) (oldestOf_heldBy_of_least lawTaken held reader least)))
  · exact congrArg Host.Outcome.next (takeRequest_bad_form asked rfl (parseNothing_eq_none form))
  · rintro rfl
    exact ⟨s.heldNumbers p, heldNumbers_increasing law p, fun n => mem_heldNumbers,
      congrArg Host.Outcome.next (takeRequest_answered asked rfl rfl)⟩

end Sys2Proof.Machine
end

section
/-! PROOFS. The commands that read: a reply that leaves the state as it is, the data of PORT_STATUS, and the kept frame that
REPEAT_FRAME answers. -/

namespace Sys2Proof.Machine

/-! ### Reading without arguments (R24, R77, R116, R155, R156) -/

/-- A command without arguments that only reads answers the data of the state its request has just left, or BAD_ARGUMENT
(R153, R173). -/
theorem takeRequest_reading {data : State → List Byte} {s : State} {p : PortId} {c : Cmd} {cmd tag : Byte} {args : List Byte}
    (asked : s.asks p cmd tag args) (command : Cmd.ofCode cmd = some c) :
    (args = [] → s.takeRequest p c (withArgs parseNothing (fun s _ => (s, .ok (data s))))
        = s.answered p tag (0x00#8 :: data (s.popRequest p)))
      ∧ (args ≠ [] → s.takeRequest p c (withArgs parseNothing (fun s _ => (s, .ok (data s))))
        = s.answered p tag [0x03#8]) := by
  constructor
  · rintro rfl
    exact takeRequest_answered asked command rfl
  · exact fun form => takeRequest_bad_form asked command (parseNothing_eq_none form)

/-- The request being answered is no longer counted among those that wait (R153, R156). -/
theorem popRequest_port_same (s : State) (p : PortId) :
    (s.popRequest p).port p = { s.port p with requests := (s.port p).requests.tail } := by
  simp [State.popRequest]

theorem portStatusData_popRequest (s : State) (p : PortId) :
    portStatusData ((s.popRequest p).port p)
      = [BitVec.ofNat 8 ((s.port p).requests.length - 1), BitVec.ofNat 8 (s.port p).responses.length,
            BitVec.ofNat 8 (s.port p).notices.length]
          ++ beBytes 2 (s.port p).subs.toNat
          ++ [edgesByte ((s.port p).capSubs.get 0), edgesByte ((s.port p).capSubs.get 1), (s.port p).frameNo]
          ++ [BitVec.ofNat 8 ((if (s.port p).lastDelivered = none then 0 else 1) + (if (s.port p).dropped then 32 else 0)
                + (if (s.port p).resetSeen then 64 else 0))]
          ++ optBytes (fun k => [k.number]) (s.port p).lastDelivered := by
  rw [popRequest_port_same]
  cases kept : (s.port p).lastDelivered with
  | none => simp [portStatusData, byte, flagBit, kept]
  | some k => simp [portStatusData, byte, flagBit, kept]

/-! ### The kept frame (R157) -/

theorem parseByte_eq_none {args : List Byte} (h : args.length ≠ 1) : parseByte args = none := by
  unfold parseByte
  split
  next => exact absurd rfl h
  next => rfl

theorem repeatFrameReply_of_absent {s : State} {p : PortId} {n : Byte}
    (h : ∀ k, (s.port p).lastDelivered = some k → k.number ≠ n) : repeatFrameReply p s [n] = (s, .refused .notFound) := by
  rw [repeatFrameReply, withArgs_of_parse (x := n) rfl]
  cases kept : (s.port p).lastDelivered with
  | none => rfl
  | some k => simp only [if_neg (h k kept)]

theorem repeatFrameReply_of_kept {s : State} {p : PortId} {k : KeptFrame} (h : (s.port p).lastDelivered = some k) :
    repeatFrameReply p s [k.number] = (s, repeatReply k.content) := by
  rw [repeatFrameReply, withArgs_of_parse (x := k.number) rfl, h]
  exact congrArg (Prod.mk s) (if_pos rfl)

/-- A repeated response joins the queue from which its request was taken, marked with the content it repeats. -/
theorem popRequest_pushResponse_repeat (s : State) (p : PortId) (tag : Byte) (f : FrameContent) :
    (s.popRequest p).pushResponse p tag (repeatReply f)
      = s.modPort p (fun r => { r with
          requests := r.requests.tail
          responses := r.responses ++ [⟨tag, 0x00#8 :: kindByte f.kind :: f.tag :: f.body, some f⟩] }) := by
  simp [State.popRequest, State.pushResponse, repeatReply, okBody, resultByte]

/-- The taking of a request leaves the kept frame. -/
theorem popRequest_lastDelivered (s : State) (p : PortId) :
    ((s.popRequest p).port p).lastDelivered = (s.port p).lastDelivered := by
  rw [popRequest_port_same]

/-- Settles O37: each command without arguments is a reading of the state its request has left, of which only the count of
waiting requests of PORT_STATUS differs; REPEAT_FRAME by whether the kept frame has the number asked for. -/
theorem readingCommandsAnswerAndChangeNothing : Obligations.ReadingCommandsAnswerAndChangeNothing := by
  unfold Obligations.ReadingCommandsAnswerAndChangeNothing
  intro s p tag args r plain
  have reads {i : Instr} {c : Cmd} {cmd : Byte} {data : State → List Byte} {bytes : List Byte}
      (command : Cmd.ofCode cmd = some c)
      (taken : exec i s = .next (s.takeRequest p c (withArgs parseNothing (fun s _ => (s, .ok (data s))))))
      (same : data (s.popRequest p) = bytes) : plain i cmd bytes := by
    intro asked
    obtain ⟨answer, badForm⟩ := takeRequest_reading (data := data) asked command
    rw [taken, ← same]
    exact ⟨fun form => congrArg _ (answer form), fun form => congrArg _ (badForm form)⟩
  refine ⟨reads rfl rfl rfl, reads rfl rfl rfl, reads rfl rfl ?_, reads rfl rfl rfl, reads rfl rfl rfl, ?_,
    fun asked => ⟨fun form => ?_, ?_⟩⟩
  · rw [portStatusData_popRequest]
    congr 1
    cases r.lastDelivered <;> rfl
  · rintro a asked rfl
    exact congrArg Host.Outcome.next (takeRequest_answered asked rfl (withArgs_of_parse (parseAxis_byte a) _ _))
  · exact congrArg Host.Outcome.next (takeRequest_bad_form asked rfl (parseByte_eq_none form))
  · rintro n rfl
    refine ⟨fun absent => ?_, fun k kept number => ?_⟩
    · refine congrArg Host.Outcome.next (takeRequest_answered asked rfl (repeatFrameReply_of_absent ?_))
      rwa [popRequest_lastDelivered]
    · subst number
      refine congrArg Host.Outcome.next ((takeRequest_of_asks asked rfl).trans ?_)
      rw [repeatFrameReply_of_kept ((popRequest_lastDelivered s p).trans kept), popRequest_pushResponse_repeat]

end Sys2Proof.Machine
end

section
/-! PROOFS. What one step of the block can do, said once: the changes of which every event is made (`Change`), the events of the
host ports and of device reset around them (`Event`). The laws of the device are then statements about single changes. -/

namespace Sys2Proof.Machine

/-! ### Axis records -/

/-- R30 for one axis record. -/
def AxisRec.Backed (r : AxisRec) : Prop :=
  r.refState = .seeking ∨ r.refState = .referenced ∨ r.refState = .suspect → r.run = .counting

/-- A replaced axis record meets each law of one axis that the old one met: R14, R30, and R34 with R44. -/
structure AxisRec.Kept (r r' : AxisRec) : Prop where
  ratchet : (r.cfg.policy = .any → r.debt = 0) → r'.cfg.policy = .any → r'.debt = 0
  backed : r.Backed → r'.Backed
  placed : r.Placed → r'.Placed

theorem stepPosition_wellFormed {cpr : Nat} {p : Position} (d : Dir) (hc : 2 ≤ cpr) (h : p.wellFormed cpr = true) :
    (stepPosition cpr d p).wellFormed cpr = true := by
  rw [position_wellFormed_iff] at h ⊢
  unfold stepPosition Config.turnsMax Config.turnsMin
  cases d with
  | forward =>
    dsimp only
    split
    · exact ⟨by assumption, h.2⟩
    · split <;> dsimp only <;> omega
  | reverse =>
    dsimp only
    split
    · dsimp only
      omega
    · split <;> dsimp only <;> omega

/-- The position of an axis is replaced by another in range. -/
theorem AxisRec.Kept.ofPosition {r : AxisRec} {p : Position} (h : r.Placed → p.wellFormed r.cfg.cpr = true) :
    r.Kept { r with pos := p } :=
  ⟨id, id, fun placed => by
    have inRange := h placed
    obtain ⟨least, most, -, offset, turns⟩ := placed
    exact ⟨least, most, inRange, offset, turns⟩⟩

/-- The reference state and other reference fields change on an axis that may have that state. -/
theorem AxisRec.Kept.ofState {r : AxisRec} {st : RefState} {ep : BitVec 16}
    (h : r.Backed → st = .seeking ∨ st = .referenced ∨ st = .suspect → r.run = .counting) :
    r.Kept { r with refState := st, epoch := ep } :=
  ⟨id, h, id⟩

/-! ### Changes -/

/-- Two entries that agree in what their BOOK fixed for good: owner, axis and action. -/
structure Entry.SameBooking (e e' : Entry) : Prop where
  owner : e'.owner = e.owner
  axis : e'.axis = e.axis
  action : e'.action = e.action

/-- One change of the state, with what its doer has checked. The index says whether an entry may be booked: inside a sample
none is. -/
inductive Change : Bool → State → State → Prop
  /-- gate inputs, and the model's own count of draws -/
  | inputs {b : Bool} {s : State} (q c : Vector FilterRec 2) (n : Nat) : Change b s { s with qw := q, cap := c, draws := n }
  /-- a new tick begins -/
  | clock {b : Bool} {s : State} : Change b s { s with time := s.time + 1#48, axes := s.axes.map AxisRec.newTick }
  /-- an axis record, with the hand-over of R46 -/
  | axis {b : Bool} {s : State} (a : AxisId) (r : AxisRec) (kept : (s.axis a).Kept r) :
      Change b s ((s.modAxis a (fun _ => r)).handOver a (s.axis a).refState r.refState)
  /-- a notice reaches some ports -/
  | told {b : Bool} {s : State} (who : PortId → Bool) (n : Notice) : Change b s (s.told who n)
  /-- the subscriptions of a port -/
  | subscribed {b : Bool} {s : State} (p : PortId) (m : BitVec 12) (c : Vector Edges 2) :
      Change b s (s.modPort p (fun r => { r with subs := m, capSubs := c }))
  /-- a port is reset (R158) -/
  | cleared {b : Bool} {s : State} (p : PortId) : Change b s (s.modPort p PortRec.clear)
  /-- a claim is renewed by use (R72) -/
  | used {b : Bool} {s : State} (subj : Subject) : Change b s (s.used subj)
  /-- a claim is granted or renewed (R67, R68) -/
  | stored {b : Bool} {s : State} (p : PortId) (subj : Subject) (lease : Nat) (idle : Level)
      (holder : (s.claim subj).holder = none ∨ (s.claim subj).holder = some p) (fits : leaseWellFormed lease = true)
      (axis : ∀ a, subj = .axis a → idle = .low) : Change b s (s.storeClaim p subj lease idle)
  /-- a subject is freed (R71) -/
  | freed {b : Bool} {s : State} (subj : Subject) : Change b s (s.freeSubject subj)
  /-- the record of a line that has a holder -/
  | driven {b : Bool} {s : State} (l : LineId) (f : LineRec → LineRec)
      (held : s.LineEntryLaw → s.FreeLineLaw → (s.claim (.line l)).holder ≠ none) : Change b s (s.modLine l f)
  /-- all entries that meet a condition are freed (R84) -/
  | without {b : Bool} {s : State} (cond : Entry → Bool) : Change b s (s.withoutEntries cond)
  /-- one entry is freed (R84) -/
  | freedEntry {b : Bool} {s : State} (i : SlotId) : Change b s (s.freeEntry i)
  /-- an entry changes in what no law reads -/
  | rewritten {b : Bool} {s : State} (i : SlotId) {e e' : Entry} (entry : (s.slot i).entry = some e)
      (same : e.SameBooking e') (state : e'.state = e.state) (serial : e'.serial = e.serial) : Change b s (s.putEntry i e')
  /-- an entry takes the next serial of its axis (R107) -/
  | requeued {b : Bool} {s : State} (i : SlotId) {e e' : Entry} {a : AxisId} (entry : (s.slot i).entry = some e)
      (same : e.SameBooking e') (state : e'.state = e.state) (axis : e.axis = a) :
      Change b s ((s.takeSerial a).1.putEntry i { e' with serial := (s.takeSerial a).2 })
  /-- an entry is booked (R89) -/
  | booked {s : State} (p : PortId) (x : BookArgs) (i : SlotId) (may : s.mayBook p x = true) (room : s.hasRoom p = true)
      (free : (s.slot i).entry = none) : Change true s (s.place p x i)
  /-- a snapshot is taken (R128) -/
  | filled {b : Bool} {s : State} (i : Fin 16) (cause : Cause) (t : Time) (readers : PortMask)
      (number : s.nextCapture < Config.captureEnd) (free : s.snaps.get i = none) (some : readers ≠ 0#3)
      (room : ∀ p, hasPort readers p = true → s.holds.get p < Config.holdLimit) : Change b s (s.fillSnap i cause t readers)
  /-- a reader leaves one snapshot (R134) -/
  | released {b : Bool} {s : State} (i : Fin 16) (p : PortId) {x : Snapshot} (held : s.snaps.get i = some x)
      (reader : hasPort x.readers p = true) : Change b s (s.releaseSnap i p)
  /-- a reader leaves all snapshots (R138) -/
  | left {b : Bool} {s : State} (p : PortId) : Change b s (s.leaveAllSnaps p)
  /-- a crossing capture shows its axes (R126) -/
  | shown {b : Bool} {s : State} (runs : List SampleRun) (x : Crossing) : Change b s (s.showCrossing runs x)

/-- Changes one after another. -/
abbrev Changes (b : Bool) : State → State → Prop := Relation.ReflTransGen (Change b)

/-- One event: a change, the taking of a request with its response, an edge of CS_N, or device reset. -/
inductive Event (b : Bool) (s : State) : State → Prop
  | change {t : State} (h : Change b s t) : Event b s t
  /-- a request leaves its queue, has its effect, and its response joins (R153) -/
  | taken (p : PortId) (tag : Byte) (rep : Reply) {u : State} (waits : (s.port p).requests ≠ [])
      (effect : Changes b (s.popRequest p) u) : Event b s (u.pushResponse p tag rep)
  | fallen (p : PortId) : Event b s (s.modPort p PortRec.fall)
  | risen (p : PortId) (sdi : List Bool) : Event b s (s.modPort p (fun r => r.rise sdi))
  | reset (csLow : PortMask) : Event b s (s.deviceReset csLow)

/-- Events one after another. -/
abbrev Events (b : Bool) : State → State → Prop := Relation.ReflTransGen (Event b)

theorem Changes.events {b : Bool} {s t : State} (h : Changes b s t) : Events b s t :=
  Relation.ReflTransGen.mono (fun _ _ c => .change c) _ _ h

/-! ### Notices, axes and references -/

variable {b : Bool} {s : State}

theorem changes_raise (p : PortId) (n : Notice) : Changes b s (s.raise p n) := by
  rw [raise_eq_told]
  exact .single (.told _ _)

theorem changes_raiseSubscribed (bit : Nat) (n : Notice) : Changes b s (s.raiseSubscribed bit n) := by
  rw [raiseSubscribed_eq]
  exact .single (.told _ _)

theorem changes_tell (m : PortMask) (p : Option PortId) (n : Notice) : Changes b s (s.tell m p n) := by
  unfold State.tell
  rw [raiseTo_eq_told]
  exact .single (.told _ _)

theorem handOver_same (s : State) (a : AxisId) (st : RefState) : s.handOver a st st = s := by
  unfold State.handOver
  rw [if_neg (fun h => h.1 h.2), if_neg (fun h => h.2 h.1)]

/-- An axis record replaced by one with the same reference state. -/
theorem changes_modAxis {a : AxisId} {f : AxisRec → AxisRec} (kept : (s.axis a).Kept (f (s.axis a)))
    (same : (f (s.axis a)).refState = (s.axis a).refState) : Changes b s (s.modAxis a f) := by
  have h := Change.axis (b := b) a (f (s.axis a)) kept
  rw [same, handOver_same] at h
  exact .single h

/-- A change of the reference on top of other new fields of the axis (R45, R46). -/
theorem changes_changeReference {a : AxisId} {f : AxisRec → AxisRec} {st : RefState} {ep : BitVec 16}
    (kept : (s.axis a).Kept { f (s.axis a) with refState := st, epoch := ep })
    (same : (f (s.axis a)).refState = (s.axis a).refState) :
    Changes b s ((s.modAxis a f).changeReference a st ep) := by
  have h : Changes b s (((s.modAxis a f).putReference a st ep).handOver a ((s.modAxis a f).axis a).refState st) := by
    have change := Change.axis (b := b) a { f (s.axis a) with refState := st, epoch := ep } kept
    rw [modAxis_axis_same, same, State.putReference, modAxis_modAxis]
    exact .single change
  unfold State.changeReference
  split
  · exact h
  · exact h.trans (changes_raiseSubscribed _ _)

/-- A fault on top of other new fields of the axis (R18, R40, R62). -/
theorem changes_fault {a : AxisId} {f : AxisRec → AxisRec} {k : FaultKind} {t : Time} {st : RefState}
    (kept : (s.axis a).Kept { f (s.axis a) with
      faults := (f (s.axis a)).faults.enter k t, refState := st, epoch := (f (s.axis a)).epoch })
    (same : (f (s.axis a)).refState = (s.axis a).refState) : Changes b s ((s.modAxis a f).fault a k t st) := by
  unfold State.fault State.enterFault State.raiseAxisFault
  rw [modAxis_modAxis, modAxis_axis_same]
  exact (changes_changeReference (f := fun r => { f r with faults := (f r).faults.enter k t }) kept same).trans
    (changes_raiseSubscribed _ _)

theorem changes_fault_alone {a : AxisId} {k : FaultKind} {t : Time} {st : RefState}
    (h : (s.axis a).Backed → st = .seeking ∨ st = .referenced ∨ st = .suspect → (s.axis a).run = .counting) :
    Changes b s (s.fault a k t st) := by
  have same : s.modAxis a (fun r => r) = s := by simp [State.modAxis, State.axis]
  have g : Changes b s ((s.modAxis a (fun r => r)).fault a k t st) := changes_fault ⟨id, h, id⟩ rfl
  rwa [same] at g

theorem changes_sensorFault (a : AxisId) (t : Time) (k : FaultKind) : Changes b s (s.sensorFault a t k) := by
  refine changes_fault_alone (fun backed => ?_)
  unfold AxisRec.Backed at backed
  cases isMajor k <;> cases h : (s.axis a).refState <;> simp_all [afterMajor, afterMinor]

/-- An establishment on a COUNTING axis at a position in range (R50, R54). -/
theorem changes_establish {a : AxisId} {p : Position} (counting : (s.axis a).Backed → (s.axis a).run = .counting)
    (inRange : (s.axis a).Placed → p.wellFormed (s.axis a).cfg.cpr = true) : Changes b s (s.establish a p) := by
  refine changes_changeReference (f := fun r => { r with pos := p, sinceIndex := 0, lastDrift := none })
    ⟨id, fun backed _ => counting backed, fun placed => ?_⟩ rfl
  have position := inRange placed
  obtain ⟨least, most, -, offset, turns⟩ := placed
  exact ⟨least, most, position, offset, turns⟩

/-- The position that an index event confirms is in range (R57). -/
theorem confirmPosition_wellFormed {cfg : AxisConfig} {p q : Position} {d : Int} (h : p.wellFormed cfg.cpr = true)
    (confirmed : confirmPosition cfg p d = some q) : q.wellFormed cfg.cpr = true := by
  unfold confirmPosition at confirmed
  split at confirmed
  · split at confirmed
    · exact ((snapTo_eq_some_iff _ _ _ _).mp confirmed).1
    · cases confirmed
      exact h
  · cases confirmed

theorem changes_checkIndex {a : AxisId} (t : Time) (beyond : RefState)
    (inForce : (s.axis a).refState = .referenced ∨ (s.axis a).refState = .suspect) :
    Changes b s (s.checkIndex a t beyond) := by
  have counting (backed : (s.axis a).Backed) : (s.axis a).run = .counting := backed (.inr inForce)
  unfold State.checkIndex
  dsimp only
  split
  next p confirmed =>
    refine changes_changeReference (f := fun r => { r with pos := p, lastDrift := some _ })
      ⟨id, fun backed _ => counting backed, fun placed => ?_⟩ rfl
    obtain ⟨least, most, position, offset, turns⟩ := placed
    exact ⟨least, most, confirmPosition_wellFormed position confirmed, offset, turns⟩
  next => exact changes_fault (f := fun r => { r with lastDrift := some _ }) ⟨id, fun backed _ => counting backed, id⟩ rfl

theorem changes_indexEvent (a : AxisId) (t : Time) : Changes b s (s.indexEvent a t) := by
  have judged : Changes b s (s.judgeIndex a t) := by
    unfold State.judgeIndex
    split
    next seeking =>
      refine changes_establish (fun backed => backed (.inl seeking)) (fun placed => ?_)
      obtain ⟨-, -, -, offset, turns⟩ := placed
      exact (position_wellFormed_iff _ _).mpr ⟨offset, turns⟩
    next h => exact changes_checkIndex t _ (.inl h)
    next h => exact changes_checkIndex t _ (.inr h)
    next => exact .refl
    next => exact .refl
  have zeroed (u : State) : Changes b u (u.zeroSince a) := changes_modAxis ⟨id, id, id⟩ rfl
  exact judged.trans (zeroed _)

theorem changes_missedIndex (a : AxisId) (t : Time) : Changes b s (s.missedIndex a t) := by
  unfold State.missedIndex
  split
  next missed =>
    simp only [AxisRec.indexMissed, Bool.and_eq_true, Bool.or_eq_true, decide_eq_true_eq] at missed
    obtain ⟨⟨-, inForce⟩, -⟩ := missed
    exact changes_fault (f := fun r => { r with sinceIndex := towardZero r.cfg.cpr r.sinceIndex })
      ⟨id, fun backed _ => backed (.inr inForce), id⟩ rfl
  next => exact .refl

theorem changes_checkStep (a : AxisId) (t : Time) (d : Dir) : Changes b s (s.checkStep a t d) :=
  .trans (changes_modAxis ⟨id, id, id⟩ rfl) (changes_missedIndex a t)

/-! ### Captures -/

theorem tell_holds (m : PortMask) (p : Option PortId) (n : Notice) : (s.tell m p n).holds = s.holds := by
  obtain ⟨_, h⟩ := tell_touches s m p n
  rw [h]

theorem tell_nextCapture (m : PortMask) (p : Option PortId) (n : Notice) : (s.tell m p n).nextCapture = s.nextCapture := by
  obtain ⟨_, h⟩ := tell_touches s m p n
  rw [h]

theorem freeSnap?_spec {i : Fin 16} (h : s.freeSnap? = some i) : s.snaps.get i = none := by
  simpa using List.find?_some h

theorem changes_captureInto {cause : Cause} {t : Time} {readers : PortMask} {p : Option PortId}
    (number : s.nextCapture < Config.captureEnd) (room : ∀ q, hasPort readers q = true → s.holds.get q < Config.holdLimit) :
    Changes b s (s.captureInto cause t readers p).1 := by
  unfold State.captureInto
  split
  next => exact .refl
  next some =>
    split
    next => exact changes_tell _ _ _
    next i free => exact .trans (.single (.filled i cause t readers number (freeSnap?_spec free) some room)) (changes_tell _ _ _)

theorem changes_capture (cause : Cause) (t : Time) (cands : PortMask) (p : Option PortId) :
    Changes b s (s.capture cause t cands p).1 := by
  unfold State.capture
  split
  next => exact .refl
  next number =>
    refine .trans (changes_tell _ _ _) (changes_captureInto ?_ fun q reads => ?_)
    · rw [tell_nextCapture]
      exact Nat.not_le.mp number
    · rw [tell_holds]
      simp only [State.unpruned, hasPort_maskOf, Bool.and_eq_true, Bool.not_eq_true', decide_eq_false_iff_not,
        Nat.not_le] at reads
      exact reads.2

theorem changes_runCap (c : CapId) (raw : Level) : Changes b s (s.runCap c raw) := by
  have filtered : Changes b s (s.filterCap c raw) := .single (.inputs s.qw _ s.draws)
  unfold State.runCap
  split
  · exact filtered
  · exact filtered.trans (changes_capture _ _ _ _)

end Sys2Proof.Machine
end

section
/-! PROOFS. Every command as events: firing and samples, with the slots of an offer kept on their axis; the request commands; the
step. -/

namespace Sys2Proof.Machine

/-! ### Where entries come from -/

theorem Entry.SameBooking.refl (e : Entry) : e.SameBooking e := ⟨rfl, rfl, rfl⟩

theorem Entry.SameBooking.trans {e f g : Entry} (h : e.SameBooking f) (h' : f.SameBooking g) : e.SameBooking g :=
  ⟨h'.owner.trans h.owner, h'.axis.trans h.axis, h'.action.trans h.action⟩

/-- Every entry of `t` is the same booking as the entry that its slot held in `s`. -/
def State.NoNewEntry (s t : State) : Prop :=
  ∀ i e', (t.slot i).entry = some e' → ∃ e, (s.slot i).entry = some e ∧ e.SameBooking e'

theorem State.NoNewEntry.refl (s : State) : s.NoNewEntry s := fun _ e h => ⟨e, h, .refl e⟩

theorem State.NoNewEntry.trans {s t u : State} (h : s.NoNewEntry t) (g : t.NoNewEntry u) : s.NoNewEntry u := by
  intro i e'' here
  obtain ⟨e', before, same'⟩ := g i e'' here
  obtain ⟨e, first, same⟩ := h i e' before
  exact ⟨e, first, same.trans same'⟩

/-- Every entry of `t` stood in its slot in `s`: entries have been freed at most. -/
def State.FewerEntries (s t : State) : Prop := ∀ i e, (t.slot i).entry = some e → (s.slot i).entry = some e

theorem State.FewerEntries.noNewEntry {s t : State} (h : s.FewerEntries t) : s.NoNewEntry t :=
  fun i e here => ⟨e, h i e here, .refl e⟩

theorem freeEntry_fewer (s : State) (i : SlotId) : s.FewerEntries (s.freeEntry i) := by
  intro j e here
  rw [freeEntry_slot] at here
  split at here
  · cases here
  · exact here

theorem withoutEntries_entry {s : State} {cond : Entry → Bool} {i : SlotId} {e : Entry} :
    ((s.withoutEntries cond).slot i).entry = some e ↔ (s.slot i).entry = some e ∧ cond e = false := by
  rw [withoutEntries_slot]
  cases h : (s.slot i).entry with
  | none => simp [h]
  | some f =>
    by_cases c : cond f = true
    · simp only [c, if_true, reduceCtorEq, Option.some.injEq, false_iff, not_and, Bool.not_eq_false]
      rintro rfl
      exact c
    · simp only [c, Bool.false_eq_true, if_false, h, Option.some.injEq]
      exact ⟨fun same => ⟨same, by simpa [← same] using c⟩, And.left⟩

theorem withoutEntries_fewer (s : State) (cond : Entry → Bool) : s.FewerEntries (s.withoutEntries cond) :=
  fun _ _ here => (withoutEntries_entry.mp here).1

theorem putEntry_slot (s : State) (i j : SlotId) (e : Entry) :
    (s.putEntry i e).slot j = if j = i then ⟨(s.slot i).gen, some e⟩ else s.slot j := by
  rw [State.putEntry, setSlot_slot]

theorem putEntry_noNewEntry {s : State} {i : SlotId} {e e' : Entry} (entry : (s.slot i).entry = some e)
    (same : e.SameBooking e') : s.NoNewEntry (s.putEntry i e') := by
  intro j f here
  rw [putEntry_slot] at here
  split at here
  next at' =>
    cases here
    exact ⟨e, at' ▸ entry, same⟩
  next => exact ⟨f, here, .refl f⟩

theorem setState_entry (st : EntryState) (a : AxisId) (x : PoolSlot) :
    (x.setState st a).entry = x.entry.map (fun e => if e.axis = a then { e with state := st } else e) := by
  unfold PoolSlot.setState
  split
  next e entry =>
    split
    next on => simp [entry, on]
    next off => simp [entry, off]
  next free => rw [free]; rfl

/-- An entry after a hand-over has its old state, or on the axis the state handed over (R46, R96, R97). -/
theorem handOver_entry (s : State) (a : AxisId) (old new : RefState) (i : SlotId) :
    ((s.handOver a old new).slot i).entry = (s.slot i).entry.map (fun e =>
      if e.axis = a ∧ old ≠ .referenced ∧ new = .referenced then { e with state := .armed }
      else if e.axis = a ∧ old = .referenced ∧ new ≠ .referenced then { e with state := .held }
      else e) := by
  unfold State.handOver State.armEntries State.holdEntries
  split
  next entered =>
    rw [setEntryStates_slot, setState_entry]
    simp [entered]
  next entered =>
    have notArmed (e : Entry) : ¬ (e.axis = a ∧ old ≠ .referenced ∧ new = .referenced) := fun h => entered h.2
    split
    next left =>
      rw [setEntryStates_slot, setState_entry]
      simp [left]
    next stays =>
      have notHeld (e : Entry) : ¬ (e.axis = a ∧ old = .referenced ∧ new ≠ .referenced) := fun h => stays h.2
      simp only [notArmed, notHeld, if_false, Option.map_id']

theorem handOver_noNewEntry (s : State) (a : AxisId) (old new : RefState) : s.NoNewEntry (s.handOver a old new) := by
  intro i e' here
  rw [handOver_entry, Option.map_eq_some_iff] at here
  obtain ⟨e, entry, rfl⟩ := here
  refine ⟨e, entry, ?_⟩
  split
  · exact ⟨rfl, rfl, rfl⟩
  · split <;> exact ⟨rfl, rfl, rfl⟩

/-- The lines and claims of a freed subject apart, the entries that go with it are freed all at once (R71). -/
theorem freeSubject_line (s : State) (l : LineId) (q : PortId) (holder : (s.claim (.line l)).holder = some q) :
    s.freeSubject (.line l)
      = ((s.modClaim (.line l) (fun _ => ClaimRec.free)).modLine l
          (fun r => { r with level := .low, pulseEnd := none })).withoutEntries
          (fun e => decide (e.owner = q) && decide (e.action.line? = some l)) := by
  simp only [State.freeSubject, State.cancelledBy, holder, State.lineEntries]
  exact freeEntries_slotsWhere _ _

theorem freeSubject_free_line (s : State) (l : LineId) (holder : (s.claim (.line l)).holder = none) :
    s.freeSubject (.line l)
      = (s.modClaim (.line l) (fun _ => ClaimRec.free)).modLine l (fun r => { r with level := .low, pulseEnd := none }) := by
  simp only [State.freeSubject, State.cancelledBy, holder]
  rfl

theorem freeSubject_fewer (s : State) (subj : Subject) : s.FewerEntries (s.freeSubject subj) := by
  cases subj with
  | axis a => exact fun _ _ here => here
  | line l =>
    cases holder : (s.claim (.line l)).holder with
    | none =>
      rw [freeSubject_free_line s l holder]
      exact fun _ _ here => here
    | some q =>
      rw [freeSubject_line s l q holder]
      exact withoutEntries_fewer _ _

/-- A renumbering changes serials alone, and in entries of the axis alone (R86). -/
theorem renumber_slot (s : State) (a : AxisId) (i : SlotId) :
    (s.renumber a).slot i = if i ∈ (s.axisList a).map Prod.fst
      then ⟨(s.slot i).gen, (s.slot i).entry.map (fun e => { e with serial := ((s.axisList a).map Prod.fst).idxOf i })⟩
      else s.slot i := by
  have h := giveSerials_slot ((s.axisList a).map Prod.fst) s 0 (axisList_slots_nodup s a) i
  simp only [Nat.zero_add] at h
  exact h

/-- Where a serial is taken, every slot keeps its entry but perhaps for the serial (R86). -/
theorem takeSerial_entry (s : State) (a : AxisId) (i : SlotId) :
    ∃ n : Nat → Nat, (((s.takeSerial a).1).slot i).entry = (s.slot i).entry.map (fun e => { e with serial := n e.serial }) := by
  have kept : (s.slot i).entry = (s.slot i).entry.map (fun e => { e with serial := id e.serial }) := by simp
  change ∃ n : Nat → Nat, ((s.readySerial a).slot i).entry = _
  unfold State.readySerial
  split
  · rw [renumber_slot]
    split
    · exact ⟨fun _ => _, rfl⟩
    · exact ⟨id, kept⟩
  · exact ⟨id, kept⟩

theorem takeSerial_noNewEntry (s : State) (a : AxisId) : s.NoNewEntry (s.takeSerial a).1 := by
  intro i e' here
  obtain ⟨n, h⟩ := takeSerial_entry s a i
  rw [h, Option.map_eq_some_iff] at here
  obtain ⟨e, entry, rfl⟩ := here
  exact ⟨e, entry, rfl, rfl, rfl⟩

theorem requeued_noNewEntry {s : State} {i : SlotId} {e e' : Entry} {a : AxisId} (entry : (s.slot i).entry = some e)
    (same : e.SameBooking e') :
    s.NoNewEntry ((s.takeSerial a).1.putEntry i { e' with serial := (s.takeSerial a).2 }) := by
  obtain ⟨n, h⟩ := takeSerial_entry s a i
  rw [entry] at h
  exact (takeSerial_noNewEntry s a).trans (putEntry_noNewEntry h ⟨same.owner, same.axis, same.action⟩)

/-- Entries come from where they were, or from a BOOK. -/
theorem Change.noNewEntry_or_booked {b : Bool} {s t : State} (h : Change b s t) :
    s.NoNewEntry t ∨ b = true ∧ ∃ p x i, s.mayBook p x = true ∧ t = s.place p x i := by
  cases h with
  | axis a r kept => exact .inl (handOver_noNewEntry _ a _ _)
  | freed subj => exact .inl (freeSubject_fewer s subj).noNewEntry
  | without cond => exact .inl (withoutEntries_fewer s cond).noNewEntry
  | freedEntry i => exact .inl (freeEntry_fewer s i).noNewEntry
  | rewritten i entry same state serial => exact .inl (putEntry_noNewEntry entry same)
  | requeued i entry same state axis => exact .inl (requeued_noNewEntry entry same)
  | booked p x i may room free => exact .inr ⟨rfl, p, x, i, may, rfl⟩
  | _ => exact .inl (.refl s)

/-- Inside a sample no entry is booked. -/
theorem Change.noNewEntry {s t : State} (h : Change false s t) : s.NoNewEntry t :=
  h.noNewEntry_or_booked.resolve_right fun booked => Bool.false_ne_true booked.1

theorem Changes.noNewEntry {s t : State} (h : Changes false s t) : s.NoNewEntry t := by
  induction h with
  | refl => exact .refl s
  | tail _ change ih => exact ih.trans change.noNewEntry

theorem Events.noNewEntry {s t : State} (h : Events false s t) : s.NoNewEntry t := by
  induction h with
  | refl => exact .refl s
  | tail _ event ih =>
    refine ih.trans ?_
    cases event with
    | change h => exact h.noNewEntry
    | taken p tag rep waits effect => exact effect.noNewEntry
    | fallen p => exact .refl _
    | risen p sdi => exact .refl _
    | reset csLow =>
      intro i e here
      simp [State.deviceReset, State.reset, State.slot] at here

/-! ### Firing -/

variable {b : Bool} {s : State}

/-- The entry that a slot holds names a line only if the line has a holder (R99). -/
theorem lineAction_change {i : SlotId} {e : Entry} {l : LineId} (entry : (s.slot i).entry = some e)
    (line : e.action.line? = some l) (t : Time) (act : LineAction) : Changes b s (s.lineAction l t act) :=
  .single (.driven l _ fun law _ => by rw [law i e l entry line]; exact Option.some_ne_none _)

theorem changes_perform {i : SlotId} {e : Entry} (entry : (s.slot i).entry = some e) (h : Handle) (t : Time) :
    Changes b s (s.perform e h t) := by
  unfold State.perform
  split
  next => exact .refl
  next l w action => exact lineAction_change entry (by rw [action]; rfl) t _
  next l action => exact lineAction_change entry (by rw [action]; rfl) t _
  next l action => exact lineAction_change entry (by rw [action]; rfl) t _
  next l action => exact lineAction_change entry (by rw [action]; rfl) t _
  next => exact changes_capture _ _ _ _

theorem perform_slot (s : State) (e : Entry) (h : Handle) (t : Time) (i : SlotId) : (s.perform e h t).slot i = s.slot i := by
  obtain ⟨_, _, _, _, _, touches⟩ := perform_touches s e h t
  rw [touches]
  rfl

theorem notifyFired_slot (s : State) (e : Entry) (h : Handle) (t : Time) (ended : Bool) (i : SlotId) :
    (s.notifyFired e h t ended).slot i = s.slot i := by
  unfold State.notifyFired
  split <;> rfl

theorem changes_notifyFired (e : Entry) (h : Handle) (t : Time) (ended : Bool) :
    Changes b s (s.notifyFired e h t ended) := by
  unfold State.notifyFired
  split
  · exact changes_raise _ _
  · exact .refl

/-- An entry that goes on after its firing is the same booking with another target. -/
theorem settled_same {cpr : Nat} {e e' : Entry} (h : e.settled cpr = some e') :
    e.SameBooking e' ∧ e'.state = e.state := by
  unfold Entry.settled at h
  repeat' split at h
  all_goals cases h
  exact ⟨⟨rfl, rfl, rfl⟩, rfl⟩

theorem changes_settle {i : SlotId} {a : AxisId} {e : Entry} (entry : (s.slot i).entry = some e) (axis : e.axis = a)
    {after : Option Entry} (same : ∀ e', after = some e' → e.SameBooking e' ∧ e'.state = e.state) :
    Changes b s (s.settle i a after) := by
  unfold State.settle
  split
  next => exact .single (.freedEntry i)
  next e' => exact .single (.requeued i entry (same e' rfl).1 (same e' rfl).2 axis)

/-- One firing of an entry on the axis of the offer (R105). -/
theorem changes_fire {a : AxisId} {i : SlotId} (t : Time) (axis : ∀ e, (s.slot i).entry = some e → e.axis = a) :
    Changes b s (s.fire a t i) := by
  unfold State.fire
  split
  next => exact .refl
  next e entry =>
    dsimp only
    have performed : ((s.perform e (s.handleOf i) t).slot i).entry = some e := by rw [perform_slot]; exact entry
    have counted : Changes b s ((s.perform e (s.handleOf i) t).putEntry i e.counted) :=
      (changes_perform entry _ t).tail (.rewritten (e' := e.counted) i performed ⟨rfl, rfl, rfl⟩ rfl rfl)
    refine (counted.trans (changes_notifyFired e _ t _)).trans
      (changes_settle (e := e.counted) ?_ (axis e entry) fun e' => settled_same)
    rw [notifyFired_slot, putEntry_slot, if_pos rfl]

/-- The firings of slots whose entries, where they still have one, are on the axis. -/
theorem changes_firings {a : AxisId} (t : Time) (slots : List SlotId)
    (axis : ∀ i ∈ slots, ∀ e, (s.slot i).entry = some e → e.axis = a) :
    Changes false s (slots.foldl (fun u i => u.fire a t i) s) := by
  induction slots generalizing s with
  | nil => exact .refl
  | cons i rest ih =>
    have fired : Changes false s (s.fire a t i) := changes_fire t (axis i List.mem_cons_self)
    refine fired.trans (ih fun j later e here => ?_)
    obtain ⟨f, before, same⟩ := fired.noNewEntry j e here
    rw [same.axis]
    exact axis j (List.mem_cons_of_mem _ later) f before

theorem mem_matching {s : State} {a : AxisId} {d : Dir} {i : SlotId} :
    i ∈ s.matching a d ↔ ∃ e, (s.slot i).entry = some e ∧ e.axis = a
      ∧ e.matches (s.axis a).cfg.cpr (s.axis a).pos d = true := by
  simp only [State.matching, List.mem_map, List.mem_filter, Prod.exists, mem_axisList]
  constructor
  · rintro ⟨j, e, ⟨⟨entry, axis⟩, fits⟩, rfl⟩
    exact ⟨e, entry, axis, fits⟩
  · rintro ⟨e, entry, axis, fits⟩
    exact ⟨i, e, ⟨⟨entry, axis⟩, fits⟩, rfl⟩

/-- The slots of an offer hold entries on its axis (R103). -/
theorem matching_axis {s : State} {a : AxisId} {d : Dir} {i : SlotId} (h : i ∈ s.matching a d) {e : Entry}
    (entry : (s.slot i).entry = some e) : e.axis = a := by
  obtain ⟨f, entry', axis, -⟩ := mem_matching.mp h
  rw [entry] at entry'
  cases entry'
  exact axis

theorem changes_offer (a : AxisId) (d : Dir) (t : Time) : Changes false s (s.offer a d t) :=
  changes_firings t _ fun _ listed _ entry => matching_axis listed entry

/-! ### Samples -/

/-- With policy ANY the ratchet applies every step and keeps the debt (R13). -/
theorem ratchet_any (d : Dir) (n : Nat) : ratchet .any d n = ⟨true, n, false⟩ := rfl

theorem changes_land (a : AxisId) (t : Time) (d : Dir) : Changes b s (s.land a t d) := by
  have stepped : Changes b s (s.rawStep a d t) := by
    have fields : Changes b s (s.modAxis a (fun r => r.rawStep d t)) := changes_modAxis ⟨id, id, id⟩ rfl
    unfold State.rawStep
    split
    · exact fields
    · exact fields.trans (changes_raiseSubscribed _ _)
  have indebted : Changes b (s.rawStep a d t)
      ((s.rawStep a d t).setDebt a (ratchet (s.axis a).cfg.policy d (s.axis a).debt).debt) := by
    refine changes_modAxis ⟨?_, id, id⟩ rfl
    rw [rawStep_axis_same]
    intro law any
    change (s.axis a).cfg.policy = .any at any
    change (ratchet (s.axis a).cfg.policy d (s.axis a).debt).debt = 0
    rw [any, ratchet_any]
    exact law any
  have moved (u : State) : Changes b u (u.moveAxis a d) := by
    refine changes_modAxis (.ofPosition fun placed => ?_) rfl
    obtain ⟨least, -, position, -⟩ := placed
    exact stepPosition_wellFormed d least position
  unfold State.land
  dsimp only
  split
  · exact (stepped.trans indebted).trans (moved _)
  · exact stepped.trans indebted

theorem changes_oneStep (a : AxisId) (t : Time) (d : Dir) : Changes false s (s.oneStep a t d) := by
  unfold State.oneStep
  split
  · exact ((changes_land a t d).trans (changes_offer a d t)).trans (changes_checkStep a t d)
  · exact changes_land a t d

theorem changes_runStages (a : AxisId) (t : Time) (steps : List Dir) (index : Bool) (faults : List FaultKind) :
    Changes false s (s.runStages a t steps index faults) := by
  have all (l : List Dir) (u : State) : Changes false u (u.allSteps a t l).1 := by
    induction l generalizing u with
    | nil => exact .refl
    | cons d rest ih => exact (changes_oneStep a t d).trans (ih _)
  have indexed (u : State) : Changes false u (u.indexStage a t index) := by
    unfold State.indexStage
    split
    · exact changes_indexEvent a t
    · exact .refl
  have faulted (l : List FaultKind) (u : State) : Changes false u (u.faultStage a t l) := by
    unfold State.faultStage
    induction l generalizing u with
    | nil => exact .refl
    | cons k rest ih => exact (changes_sensorFault a t k).trans (ih _)
  exact ((all steps s).trans (indexed _)).trans (faulted _ _)

/-- The offer of a sample under way holds slots whose entries, where they still have one, are on its axis. -/
def SampleRun.OnAxis (r : SampleRun) (s : State) : Prop :=
  ∀ d slots, r.offer = some (d, slots) → ∀ i ∈ slots, ∀ e, (s.slot i).entry = some e → e.axis = r.axis

theorem SampleRun.OnAxis.ofNoNewEntry {r : SampleRun} {s t : State} (h : r.OnAxis s) (g : s.NoNewEntry t) : r.OnAxis t := by
  intro d slots offer i listed e here
  obtain ⟨f, before, same⟩ := g i e here
  rw [same.axis]
  exact h d slots offer i listed f before

/-! A part of stage 2, by what is to come: a firing, the end of an offer, a raw step, or nothing. -/

theorem advance_firing (s : State) {r : SampleRun} {d : Dir} {i : SlotId} {rest : List SlotId}
    (h : r.offer = some (d, i :: rest)) :
    s.advance r = (s.fire r.axis r.time i, { r with offer := some (d, rest) }) := by
  simp only [State.advance, h]

theorem advance_offer_end (s : State) {r : SampleRun} {d : Dir} (h : r.offer = some (d, [])) :
    s.advance r = (s.checkStep r.axis r.time d, { r with offer := none }) := by
  simp only [State.advance, h]

theorem advance_step (s : State) {r : SampleRun} {d : Dir} {rest : List Dir} (h : r.offer = none) (steps : r.steps = d :: rest) :
    s.advance r = (s.land r.axis r.time d, { r with
      offer := if stepApplies (s.axis r.axis) d then some (d, (s.land r.axis r.time d).matching r.axis d) else none
      steps := rest
      faults := r.faults ++ stepFaults (s.axis r.axis) d }) := by
  simp only [State.advance, h, steps]

theorem advance_done (s : State) {r : SampleRun} (h : r.offer = none) (steps : r.steps = []) : s.advance r = (s, r) := by
  simp only [State.advance, h, steps]

theorem changes_advance {r : SampleRun} (h : r.OnAxis s) : Changes false s (s.advance r).1 := by
  rcases offer : r.offer with _ | ⟨d, _ | ⟨i, rest⟩⟩
  · rcases steps : r.steps with _ | ⟨d, rest⟩
    · rw [advance_done s offer steps]
    · rw [advance_step s offer steps]
      exact changes_land _ _ _
  · rw [advance_offer_end s offer]
    exact changes_checkStep _ _ _
  · rw [advance_firing s offer]
    exact changes_fire _ (h d _ offer i List.mem_cons_self)

theorem advance_onAxis {r : SampleRun} (h : r.OnAxis s) : (s.advance r).2.OnAxis (s.advance r).1 := by
  have kept := h.ofNoNewEntry (changes_advance h).noNewEntry
  rcases offer : r.offer with _ | ⟨d, _ | ⟨i, rest⟩⟩
  · rcases steps : r.steps with _ | ⟨d, rest⟩
    · rwa [advance_done s offer steps] at kept ⊢
    · rw [advance_step s offer steps]
      intro d' slots made j listed e entry
      dsimp only at made
      split at made
      · cases made
        exact matching_axis listed entry
      · cases made
  · rw [advance_offer_end s offer]
    intro d' slots made
    cases made
  · rw [advance_firing s offer] at kept ⊢
    intro d' slots made j listed
    cases made
    exact kept d _ offer j (List.mem_cons_of_mem _ listed)

theorem changes_finishSample {r : SampleRun} (h : r.OnAxis s) : Changes false s (s.finishSample r) := by
  unfold State.finishSample State.finishOffer
  split
  next => exact changes_runStages _ _ _ _ _
  next d slots offer =>
    exact ((changes_firings _ slots (h d slots offer)).trans (changes_checkStep _ _ _)).trans (changes_runStages _ _ _ _ _)

theorem changes_beginSample (a : AxisId) (rawA rawB rawZ : Level) :
    Changes b s (s.beginSample a rawA rawB rawZ).1 := by
  have filtered : Changes b s (s.modAxis a (fun r => r.filtered rawA rawB rawZ)) := changes_modAxis ⟨id, id, id⟩ rfl
  unfold State.beginSample
  dsimp only
  split
  · have stored (u : State) : Changes b u (u.modAxis a (fun r => { r with prevCode := some r.code })) :=
      changes_modAxis ⟨id, id, id⟩ rfl
    exact filtered.trans (stored _)
  · exact filtered

/-- A sample that begins has no offer under way. -/
theorem beginSample_onAxis {a : AxisId} {rawA rawB rawZ : Level} {r : SampleRun} {t : State}
    (h : (s.beginSample a rawA rawB rawZ).2 = some r) : r.OnAxis t := by
  unfold State.beginSample at h
  dsimp only at h
  split at h
  · cases h
    intro d slots offer
    cases offer
  · cases h

/-! ### Requests -/

/-- Taking a request is no event, or the one event of its effect and its response (R153). -/
theorem events_takeRequest {p : PortId} {c : Cmd} {act : State → List Byte → State × Reply}
    (h : ∀ args, Changes b (s.popRequest p) (act (s.popRequest p) args).1) : Events b s (s.takeRequest p c act) := by
  obtain same | ⟨cmd, tag, args, asked, -, taken⟩ := takeRequest_cases s p c act
  · rw [same]
  · rw [taken]
    refine .single (.taken p tag _ (fun none => ?_) (h args))
    rw [State.asks, none] at asked
    cases asked

theorem changes_withArgs {α : Type} {parse : List Byte → Option α} {act : State → α → State × Reply} {args : List Byte}
    (h : ∀ x, parse args = some x → Changes b s (act s x).1) : Changes b s (withArgs parse act s args).1 := by
  unfold withArgs
  split
  · exact .refl
  · exact h _ (by assumption)

theorem changes_snapReply (p : PortId) (args : List Byte) : Changes b s (snapReply p s args).1 :=
  changes_withArgs fun _ _ => changes_capture _ _ _ _

/-! ### Samples with what is taken between their parts -/

/-- The offers of all samples under way hold slots of their own axes. -/
def Weaving.OnAxis (w : Weaving) : Prop := ∀ r ∈ w.runs, r.OnAxis w.state

theorem take_start (ph : ClkPhase) (w : Weaving) (a : AxisId) (rawA rawB rawZ : Level) :
    w.take ph (.start a rawA rawB rawZ)
      = if w.runs.all (fun r => decide (r.axis ≠ a)) && w.state.takesSample a ph then w.begin a rawA rawB rawZ else w := rfl

theorem take_go_of_none (ph : ClkPhase) {w : Weaving} {a : AxisId} (h : w.runs.find? (fun r => decide (r.axis = a)) = none)
    (late : List AxisId) : w.take ph (.go a late) = w := by
  simp only [Weaving.take, h]

theorem take_go_of_some (ph : ClkPhase) {w : Weaving} {a : AxisId} {r : SampleRun}
    (h : w.runs.find? (fun r => decide (r.axis = a)) = some r) (late : List AxisId) :
    w.take ph (.go a late) = (w.event (some a) late (w.state.advance r).1).setRun (w.state.advance r).2 := by
  simp only [Weaving.take, h]

theorem events_take {ph : ClkPhase} {w : Weaving} (h : w.OnAxis) (x : Between) :
    Events false w.state (w.take ph x).state ∧ (w.take ph x).OnAxis := by
  cases x with
  | edge c raw late =>
    have events : Events false w.state (w.state.runCap c raw) := (changes_runCap c raw).events
    exact ⟨events, fun r under => (h r under).ofNoNewEntry events.noNewEntry⟩
  | snap p late =>
    have events : Events false w.state (w.state.takeRequest p .snap (snapReply p)) :=
      events_takeRequest fun args => changes_snapReply p args
    exact ⟨events, fun r under => (h r under).ofNoNewEntry events.noNewEntry⟩
  | start a rawA rawB rawZ =>
    rw [take_start]
    split
    · have changes : Changes false w.state (w.state.beginSample a rawA rawB rawZ).1 := changes_beginSample a rawA rawB rawZ
      refine ⟨changes.events, fun r under => ?_⟩
      rcases List.mem_append.mp under with old | new
      · exact (h r old).ofNoNewEntry changes.noNewEntry
      · exact beginSample_onAxis (Option.mem_toList.mp new)
    · exact ⟨.refl, h⟩
  | go a late =>
    cases found : w.runs.find? (fun r => decide (r.axis = a)) with
    | none =>
      rw [take_go_of_none ph found]
      exact ⟨.refl, h⟩
    | some r =>
      rw [take_go_of_some ph found]
      have mine : r.OnAxis w.state := h r (List.mem_of_find?_eq_some found)
      have changes := changes_advance mine
      refine ⟨changes.events, fun q under => ?_⟩
      obtain ⟨q', old, rfl⟩ := List.mem_map.mp under
      split
      · exact advance_onAxis mine
      · exact (h q' old).ofNoNewEntry changes.noNewEntry

theorem changes_finishRuns {runs : List SampleRun} (crossings : List Crossing) (h : ∀ r ∈ runs, r.OnAxis s) :
    Changes false s (finishRuns s crossings runs).1 := by
  induction runs generalizing s crossings with
  | nil => exact .refl
  | cons r rest ih =>
    have changes := changes_finishSample (h r List.mem_cons_self)
    exact changes.trans (ih _ fun q later => (h q (List.mem_cons_of_mem _ later)).ofNoNewEntry changes.noNewEntry)

theorem events_close {w : Weaving} (h : w.OnAxis) : Events false w.state w.close := by
  have shown (l : List Crossing) (u : State) : Changes false u (l.foldl (State.showCrossing w.runs) u) := by
    induction l generalizing u with
    | nil => exact .refl
    | cons x rest ih => exact .head (.shown w.runs x) (ih _)
  exact Changes.events ((changes_finishRuns w.crossings h).trans (shown _ _))

theorem events_sample (a : AxisId) (course : SampleCourse) (rawA rawB rawZ : Level) :
    Events false s (s.sample a course rawA rawB rawZ) := by
  have woven (l : List Between) (w : Weaving) (h : w.OnAxis) :
      Events false w.state (l.foldl (Weaving.take course.half) w).state ∧ (l.foldl (Weaving.take course.half) w).OnAxis := by
    induction l generalizing w with
    | nil => exact ⟨.refl, h⟩
    | cons x rest ih =>
      obtain ⟨one, kept⟩ := events_take (ph := course.half) h x
      obtain ⟨more, last⟩ := ih _ kept
      exact ⟨one.trans more, last⟩
  have begun : ((⟨s, [], []⟩ : Weaving).begin a rawA rawB rawZ).OnAxis :=
    fun r under => beginSample_onAxis (Option.mem_toList.mp under)
  obtain ⟨events, last⟩ := woven course.between _ begun
  exact ((changes_beginSample a rawA rawB rawZ).events.trans events).trans (events_close last)

end Sys2Proof.Machine
end

section
/-! PROOFS. Each command as events, by its family; then every step. -/

namespace Sys2Proof.Machine

variable {b : Bool} {s : State}

/-! ### Expiries and the tick -/

theorem changes_stallEvent (a : AxisId) : Changes b s (s.stallEvent a) := by
  unfold State.stallEvent State.takeStall
  split
  · have stopped : Changes b s (s.modAxis a (fun r => { r with
        motion := .stopped
        lastInterval := none
        timingRun := .closed
        stall := none })) := changes_modAxis ⟨id, id, id⟩ rfl
    exact stopped.trans (changes_raiseSubscribed _ _)
  · exact .refl

theorem changes_raiseCancelled (p : PortId) (a : AxisId) (n : Nat) : Changes b s (s.raiseCancelled p a n) := by
  unfold State.raiseCancelled
  split
  · exact .refl
  · exact changes_raise _ _

theorem changes_foldl {α : Type} {f : State → α → State} (h : ∀ u x, Changes b u (f u x)) (l : List α) :
    Changes b s (l.foldl f s) := by
  induction l generalizing s with
  | nil => exact .refl
  | cons x rest ih => exact (h s x).trans ih

theorem changes_leaseEvent (subj : Subject) : Changes b s (s.leaseEvent subj) := by
  unfold State.leaseEvent State.takeLease State.raiseAllCancelled
  split
  · split
    · exact .refl
    · exact ((Relation.ReflTransGen.single (.freed subj)).trans (changes_raise _ _)).trans
        (changes_foldl (fun _ _ => changes_raiseCancelled _ _ _) _)
  · exact .refl

/-- A pulse runs only on a line that has a holder (R109). -/
theorem changes_pulseEvent (l : LineId) : Changes b s (s.pulseEvent l) := by
  unfold State.pulseEvent State.endPulse
  split
  next due =>
    refine .single (.driven l _ fun _ law free => ?_)
    obtain ⟨-, none⟩ := law l free
    simp [isDue, none] at due
  next => exact .refl

theorem changes_timerEvent (x : TimerId) : Changes b s (s.timerEvent x) := by
  cases x with
  | stall a => exact changes_stallEvent a
  | lease subj => exact changes_leaseEvent subj
  | pulse l => exact changes_pulseEvent l

theorem changes_tick : Changes b s s.tick := by
  unfold State.tick State.takeDue
  dsimp only
  split
  · exact ((Relation.ReflTransGen.single (.inputs s.qw s.cap (s.draws + 1))).trans
      (changes_foldl (fun _ x => changes_timerEvent x) _)).tail .clock
  · exact .single .clock

/-! ### Axis and reference commands -/

theorem changes_needAxis {p : PortId} {a : AxisId} {act : State → State × Reply} (h : Changes b s (act s).1) :
    Changes b s (needAxis p a act s).1 := by
  unfold needAxis
  split
  · exact h
  · exact .refl

theorem changes_needState {cond : State → Bool} {act : State → State × Reply} (h : cond s = true → Changes b s (act s).1) :
    Changes b s (needState cond act s).1 := by
  unfold needState
  split
  · exact h (by assumption)
  · exact .refl

theorem changes_needValues {cond : State → Bool} {act : State → State × Reply} (h : cond s = true → Changes b s (act s).1) :
    Changes b s (needValues cond act s).1 := by
  unfold needValues
  split
  · exact h (by assumption)
  · exact .refl

theorem changes_acceptAxis {a : AxisId} {act : State → State} {data : State → List Byte} (h : Changes b s (act s)) :
    Changes b s (acceptAxis a act data s).1 := by
  rw [acceptAxis_eq]
  exact h.tail (.used _)

theorem changes_cancelAxisEntries (a : AxisId) : Changes b s (s.cancelAxisEntries a) := by
  unfold State.cancelAxisEntries
  dsimp only
  rw [freeEntries_slotsWhere]
  exact .head (.without _) (changes_foldl (fun _ _ => changes_raiseCancelled _ _ _) _)

/-- What a well-formed record says of the CPR (R27). -/
theorem wellFormed_cpr {c : AxisConfig} (h : c.wellFormed = true) : 2 ≤ c.cpr ∧ c.cpr ≤ 1048576 := by
  simp only [AxisConfig.wellFormed, Bool.and_eq_true, decide_eq_true_eq] at h
  obtain ⟨⟨⟨⟨cpr, -⟩, -⟩, -⟩, -⟩ := h
  exact cpr

/-- An axis that loses its place with its mode or CPR is at the zero position with no debt (R28). -/
theorem kept_unplace {r : AxisRec} {c : AxisConfig} {half : ClkPhase} {ep : BitVec 16} (fits : c.wellFormed = true)
    (h : recounts r.cfg c = true) : r.Kept { (r.configure half c).unplace with refState := .unreferenced, epoch := ep } := by
  refine ⟨fun _ _ => ?_, fun _ => ?_, fun _ => ?_⟩
  · simp [AxisRec.unplace, AxisRec.configure, clearsDebt, h]
  · simp [AxisRec.Backed]
  · obtain ⟨least, most⟩ := wellFormed_cpr fits
    refine ⟨least, most, (position_wellFormed_iff _ _).mpr ?_, ?_, ?_, ?_⟩
    all_goals simp [AxisRec.unplace, AxisRec.configure, Config.turnsMin, Config.turnsMax]
    all_goals omega

/-- A record that keeps mode and CPR keeps the place; with another policy the debt is cleared (R14). -/
theorem kept_configure {r : AxisRec} {c : AxisConfig} {half : ClkPhase} (h : ¬ recounts r.cfg c = true) :
    r.Kept (r.configure half c) := by
  simp only [recounts, Bool.or_eq_true, decide_eq_true_eq, not_or, not_not] at h
  obtain ⟨mode, cpr⟩ := h
  refine ⟨fun law any => ?_, id, fun placed => ?_⟩
  · change (if clearsDebt r.cfg c then 0 else r.debt) = 0
    split
    · rfl
    next keeps =>
      simp only [clearsDebt, recounts, Bool.or_eq_true, decide_eq_true_eq, not_or, not_not] at keeps
      exact law (keeps.2.trans any)
  · unfold AxisRec.Placed at placed ⊢
    simp only [AxisRec.configure, ← cpr]
    exact placed

theorem changes_configure {a : AxisId} {half : ClkPhase} {c : AxisConfig} (fits : c.wellFormed = true) :
    Changes b s (s.configure a half c) := by
  unfold State.configure
  split
  next h =>
    exact (changes_changeReference (f := fun r => (r.configure half c).unplace) (kept_unplace fits h) rfl).trans
      (changes_cancelAxisEntries a)
  next h => exact changes_modAxis (kept_configure h) rfl

theorem changes_startAxis (a : AxisId) : Changes b s (s.startAxis a) := by
  have started : Changes b s (s.modAxis a AxisRec.start) := changes_modAxis ⟨id, fun _ _ => rfl, id⟩ rfl
  unfold State.startAxis
  split
  · exact started
  · exact started.trans (changes_raiseSubscribed _ _)

theorem changes_stopAxis (a : AxisId) : Changes b s (s.stopAxis a) := by
  refine changes_changeReference (f := fun r => { r with run := .disabled, prevCode := none, stall := none })
    ⟨id, fun _ inForce => ?_, id⟩ rfl
  change afterStop _ = _ ∨ afterStop _ = _ ∨ afterStop _ = _ at inForce
  cases h : (s.axis a).refState <;> simp [h, afterStop] at inForce

/-- A number of three bytes read in two's complement is in the turns range (R173). -/
theorem beInt_three (x y z : Byte) : Config.turnsMin ≤ beInt [x, y, z] ∧ beInt [x, y, z] ≤ Config.turnsMax := by
  have hx := x.isLt
  have hy := y.isLt
  have hz := z.isLt
  unfold beInt
  split
  all_goals
    simp [beNat, Config.turnsMin, Config.turnsMax] at *
    omega

theorem parseArm_turns {args : List Byte} {a : AxisId} {o : Nat} {n : Int} (h : parseArm args = some (a, o, n)) :
    Config.turnsMin ≤ n ∧ n ≤ Config.turnsMax := by
  unfold parseArm at h
  split at h
  · simp only [Option.bind_eq_bind, Option.bind_eq_some_iff, Option.some.injEq, Prod.mk.injEq] at h
    obtain ⟨_, _, _, _, rfl⟩ := h
    exact beInt_three _ _ _
  · cases h

theorem parseSetReference_turns {args : List Byte} {a : AxisId} {q : Position} (h : parseSetReference args = some (a, q)) :
    Config.turnsMin ≤ q.turns ∧ q.turns ≤ Config.turnsMax := by
  unfold parseSetReference at h
  split at h
  · simp only [Option.bind_eq_bind, Option.bind_eq_some_iff, Option.some.injEq, Prod.mk.injEq] at h
    obtain ⟨_, _, _, rfl⟩ := h
    exact beInt_three _ _ _
  · cases h

theorem changes_armReference {a : AxisId} {o : Nat} {n : Int} (counting : (s.axis a).run = .counting)
    (offset : o < (s.axis a).cfg.cpr) (turns : Config.turnsMin ≤ n ∧ n ≤ Config.turnsMax) :
    Changes b s (s.armReference a o n) := by
  refine changes_changeReference (f := fun r => { r with refOffset := o, refTurns := n })
    ⟨id, fun _ _ => counting, fun placed => ?_⟩ rfl
  obtain ⟨least, most, position, -⟩ := placed
  exact ⟨least, most, position, offset, turns⟩

theorem changes_dropReference (a : AxisId) : Changes b s (s.changeReference a .unreferenced (s.axis a).epoch) := by
  have same : s.modAxis a (fun r => r) = s := by simp [State.modAxis, State.axis]
  have h : Changes b s ((s.modAxis a (fun r => r)).changeReference a .unreferenced (s.axis a).epoch) :=
    changes_changeReference (.ofState fun _ => by simp) rfl
  rwa [same] at h

theorem events_setAxisConfig (p : PortId) (half : ClkPhase) :
    Events b s (s.takeRequest p .setAxisConfig (setAxisConfigReply p half)) :=
  events_takeRequest fun _ => changes_withArgs fun _ _ => changes_needAxis (changes_needState fun _ =>
    changes_needValues fun fits => changes_acceptAxis (changes_configure (by rwa [configAccepted_eq] at fits)))

theorem events_startAxis (p : PortId) : Events b s (s.takeRequest p .startAxis (startAxisReply p)) :=
  events_takeRequest fun _ => changes_withArgs fun a _ => changes_needAxis (changes_needState fun _ =>
    changes_acceptAxis (changes_startAxis a))

theorem events_stopAxis (p : PortId) : Events b s (s.takeRequest p .stopAxis (stopAxisReply p)) :=
  events_takeRequest fun _ => changes_withArgs fun a _ => changes_needAxis (changes_needState fun _ =>
    changes_acceptAxis (changes_stopAxis a))

theorem events_clearFaults (p : PortId) : Events b s (s.takeRequest p .clearFaults (clearFaultsReply p)) :=
  events_takeRequest fun _ => changes_withArgs fun _ _ => changes_needAxis (changes_acceptAxis
    (changes_modAxis ⟨id, id, id⟩ rfl))

theorem events_armReference (p : PortId) : Events b s (s.takeRequest p .armReference (armReferenceReply p)) :=
  events_takeRequest fun _ => changes_withArgs fun x parsed => changes_needAxis (changes_needState fun met =>
    changes_needValues fun fits => changes_acceptAxis (by
      rw [Bool.and_eq_true, isCounting_iff] at met
      exact changes_armReference met.1 (of_decide_eq_true fits) (parseArm_turns parsed)))

theorem events_setReference (p : PortId) : Events b s (s.takeRequest p .setReference (setReferenceReply p)) :=
  events_takeRequest fun _ => changes_withArgs fun _ parsed => changes_needAxis (changes_needState fun met =>
    changes_needValues fun fits => changes_acceptAxis (changes_establish (fun _ => (isCounting_iff _ _).mp met) fun _ =>
      (position_wellFormed_iff _ _).mpr ⟨of_decide_eq_true fits, parseSetReference_turns parsed⟩))

theorem events_dropReference (p : PortId) : Events b s (s.takeRequest p .dropReference (dropReferenceReply p)) :=
  events_takeRequest fun _ => changes_withArgs fun a _ => changes_needAxis (changes_needState fun _ =>
    changes_acceptAxis (changes_dropReference a))

/-! ### Claim and line commands -/

/-- CLAIM carries an idle level for a line and only for a line (R66). -/
theorem parseClaim_axis {args : List Byte} {subj : Subject} {lease : Nat} {idle : Level}
    (h : parseClaim args = some (subj, lease, idle)) (a : AxisId) (axis : subj = .axis a) : idle = .low := by
  subst axis
  unfold parseClaim at h
  split at h
  · split at h <;> cases h
    rfl
  · split at h <;> cases h
  · cases h

/-- A line whose claim has just been stored has a holder. -/
theorem change_line_of_stored (p : PortId) (l : LineId) (lease : Nat) (idle : Level) (f : LineRec → LineRec) :
    Change b (s.storeClaim p (.line l) lease idle) ((s.storeClaim p (.line l) lease idle).modLine l f) :=
  .driven l f fun _ _ => by simp [State.storeClaim]

theorem changes_grant {p : PortId} {subj : Subject} {lease : Nat} {idle : Level}
    (stored : Change b s (s.storeClaim p subj lease idle)) : Changes b s (s.grant p subj lease idle) := by
  cases subj with
  | axis a => exact .single stored
  | line l =>
    dsimp only [State.grant]
    exact (Relation.ReflTransGen.single stored).tail (change_line_of_stored p l lease idle _)

theorem changes_renew {p : PortId} {subj : Subject} {lease : Nat} {idle : Level}
    (stored : Change b s (s.storeClaim p subj lease idle)) : Changes b s (s.renew p subj lease idle) := by
  cases subj with
  | axis a => exact .single stored
  | line l =>
    dsimp only [State.renew]
    exact (Relation.ReflTransGen.single stored).tail (change_line_of_stored p l lease idle _)

theorem changes_claimEffect {p : PortId} {subj : Subject} {lease : Nat} {idle : Level} (fits : leaseWellFormed lease = true)
    (axis : ∀ a, subj = .axis a → idle = .low) : Changes b s (claimEffect p s subj lease idle).1 := by
  unfold claimEffect
  split
  next free => exact changes_grant (.stored p subj lease idle (.inl free) fits axis)
  next q holder =>
    split
    next mine => exact changes_renew (.stored p subj lease idle (.inr (by rw [holder, mine])) fits axis)
    next => exact .refl

theorem events_claim (p : PortId) : Events b s (s.takeRequest p .claim (claimReply p)) :=
  events_takeRequest fun _ => changes_withArgs fun _ parsed => changes_needValues fun fits =>
    changes_claimEffect (by rwa [leaseAccepted_eq] at fits) (parseClaim_axis parsed)

theorem events_release (p : PortId) : Events b s (s.takeRequest p .release (releaseReply p)) :=
  events_takeRequest fun _ => changes_withArgs fun subj _ => by
    split
    · exact .single (.freed subj)
    · exact .refl

theorem events_driveLine (p : PortId) : Events b s (s.takeRequest p .driveLine (driveLineReply p)) :=
  events_takeRequest fun _ => changes_withArgs fun x _ => by
    split
    next holds =>
      refine changes_needValues fun _ => ?_
      unfold driveEffect
      rw [renewByUse_eq_used]
      refine .head (.driven x.1 _ fun _ _ => ?_) (.single (.used _))
      rw [(holdsClaim_iff _ _ _).mp holds]
      exact Option.some_ne_none _
    next => exact .refl

/-! ### Compare commands -/

theorem freeSlot?_spec {i : SlotId} (h : s.freeSlot? = some i) : (s.slot i).entry = none := by
  simpa using List.find?_some h

theorem events_book (p : PortId) : Events true s (s.takeRequest p .book (bookReply p)) :=
  events_takeRequest fun _ => changes_withArgs fun x _ => by
    split
    next may =>
      refine changes_needValues fun _ => ?_
      unfold bookEffect
      split
      next i room free =>
        refine .head (.booked p x i may room (freeSlot?_spec free)) ?_
        unfold State.renewBooked
        split
        · rw [renewByUse_eq_used]
          exact .single (.used _)
        · exact .refl
      next => exact .refl
    next => exact .refl

theorem events_cancel (p : PortId) : Events b s (s.takeRequest p .cancel (cancelReply p)) :=
  events_takeRequest fun _ => changes_withArgs fun h _ => by
    unfold withEntry
    split
    · exact .refl
    · exact .single (.freedEntry h.slot)

theorem events_cancelAxis (p : PortId) : Events b s (s.takeRequest p .cancelAxis (cancelAxisReply p)) :=
  events_takeRequest fun _ => changes_withArgs fun a _ => by
    dsimp only [State.ownOn]
    rw [freeEntries_slotsWhere]
    exact .single (.without _)

/-! ### Snapshot and port commands -/

theorem events_releaseSnapshot (p : PortId) : Events b s (s.takeRequest p .releaseSnapshot (releaseSnapshotReply p)) :=
  events_takeRequest fun _ => changes_withArgs fun n _ => by
    unfold withSnapshot
    split
    · exact .refl
    · split
      · exact .refl
      next x held =>
        split
        next reader => exact .single (.released _ p held reader)
        · exact .refl

theorem events_subscribe (p : PortId) : Events b s (s.takeRequest p .subscribe (subscribeReply p)) :=
  events_takeRequest fun _ => changes_withArgs fun m _ =>
    .single (.subscribed p m (((s.popRequest p).port p).capSubs))

theorem events_subscribeCapture (p : PortId) :
    Events b s (s.takeRequest p .subscribeCapture (subscribeCaptureReply p)) :=
  events_takeRequest fun _ => changes_withArgs fun x _ =>
    .single (.subscribed p ((s.popRequest p).port p).subs (upd ((s.popRequest p).port p).capSubs x.1 x.2))

theorem changes_resetPort (p : PortId) : Changes b s (s.resetPort p) := by
  unfold State.resetPort State.freeEntriesOf State.freeSubjectsOf
  rw [freeEntries_slotsWhere]
  exact (Relation.ReflTransGen.head (.cleared p) (.head (.left p)
    (changes_foldl (fun _ subj => .single (.freed subj)) _))).tail (.without _)

theorem events_portReset (p : PortId) : Events b s (s.takeRequest p .portReset (portResetReply p)) :=
  events_takeRequest fun _ => changes_withArgs fun _ _ => changes_resetPort p

/-- A command that only reads changes nothing but its port's queues. -/
theorem events_reading {p : PortId} {c : Cmd} {act : State → List Byte → State × Reply}
    (h : ∀ u args, (act u args).1 = u) : Events b s (s.takeRequest p c act) :=
  events_takeRequest fun args => by rw [h]

theorem withArgs_reading {α : Type} {parse : List Byte → Option α} {act : State → α → State × Reply}
    (h : ∀ u x, (act u x).1 = u) (u : State) (args : List Byte) : (withArgs parse act u args).1 = u := by
  unfold withArgs
  split
  · rfl
  · exact h u _

theorem repeatFrameReply_reading (p : PortId) (u : State) (args : List Byte) : (repeatFrameReply p u args).1 = u :=
  withArgs_reading (fun u n => by cases (u.port p).lastDelivered <;> rfl) u args

theorem readEntryReply_reading (p : PortId) (u : State) (args : List Byte) : (readEntryReply p u args).1 = u :=
  withArgs_reading (fun u h => by unfold withEntry; split <;> rfl) u args

theorem readSnapshotReply_reading (p : PortId) (u : State) (args : List Byte) : (readSnapshotReply p u args).1 = u :=
  withArgs_reading (fun u n => by unfold withSnapshot; repeat' split
                                  all_goals rfl) u args

theorem readOldestReply_reading (p : PortId) (u : State) (args : List Byte) : (readOldestReply p u args).1 = u :=
  withArgs_reading (fun u _ => by split <;> rfl) u args

/-! ### Every step -/

/-- What may happen inside a sample may happen anywhere. -/
theorem Change.anywhere {t : State} (h : Change false s t) : Change true s t := by
  cases h with
  | inputs q c n => exact .inputs q c n
  | clock => exact .clock
  | axis a r kept => exact .axis a r kept
  | told who n => exact .told who n
  | subscribed p m c => exact .subscribed p m c
  | cleared p => exact .cleared p
  | used subj => exact .used subj
  | stored p subj lease idle holder fits axis => exact .stored p subj lease idle holder fits axis
  | freed subj => exact .freed subj
  | driven l f held => exact .driven l f held
  | without cond => exact .without cond
  | freedEntry i => exact .freedEntry i
  | rewritten i entry same state serial => exact .rewritten i entry same state serial
  | requeued i entry same state axis => exact .requeued i entry same state axis
  | filled i cause t readers number free some room => exact .filled i cause t readers number free some room
  | released i p held reader => exact .released i p held reader
  | left p => exact .left p
  | shown runs x => exact .shown runs x

theorem Event.anywhere {t : State} (h : Event false s t) : Event true s t := by
  cases h with
  | change h => exact .change h.anywhere
  | taken p tag rep waits effect =>
    exact .taken p tag rep waits (Relation.ReflTransGen.mono (fun _ _ => Change.anywhere) _ _ effect)
  | fallen p => exact .fallen p
  | risen p sdi => exact .risen p sdi
  | reset csLow => exact .reset csLow

/-- A request that names no command is taken and answered, or nothing happens (R153). -/
theorem events_frameError (p : PortId) {t : State} (h : exec (.frameError p) s = .next t) : Events b s t := by
  cases h
  split
  next detail tag rest head =>
    exact .single (.taken p tag _ (by rw [head]; exact List.cons_ne_nil _ _) .refl)
  next => exact .refl

theorem events_unknownCommand (p : PortId) {t : State} (h : exec (.unknownCommand p) s = .next t) : Events b s t := by
  cases h
  split
  next tag cmd args rest head =>
    split
    · exact .single (.taken p tag _ (by rw [head]; exact List.cons_ne_nil _ _) .refl)
    · exact .refl
  next => exact .refl

/-- What a command does is a row of events, whatever the command. -/
theorem exec_events {i : Instr} {t : State} (h : exec i s = .next t) : Events true s t := by
  cases i with
  | frameError p => exact events_frameError p h
  | unknownCommand p => exact events_unknownCommand p h
  | sampleTaken a course rawA rawB rawZ =>
    cases h
    split
    · exact Relation.ReflTransGen.mono (fun _ _ => Event.anywhere) _ _ (events_sample a course rawA rawB rawZ)
    · exact .refl
  | inputFilterRun g raw =>
    cases h
    cases g with
    | qw w => exact .single (.change (.inputs _ s.cap s.draws))
    | cap c => exact (changes_runCap c raw).events
  | deviceReset csLow => cases h; exact .single (.reset csLow)
  | quietWindowChange w raw => cases h; exact .single (.change (.inputs _ s.cap s.draws))
  | captureEdge c raw => cases h; exact (changes_runCap c raw).events
  | stallExpiry a => cases h; exact (changes_stallEvent a).events
  | leaseExpiry subj => cases h; exact (changes_leaseEvent subj).events
  | pulseEnd l => cases h; exact (changes_pulseEvent l).events
  | csNFall p => cases h; exact .single (.fallen p)
  | csNRise p sdi => cases h; exact .single (.risen p sdi)
  | deviceTimeTick => cases h; exact changes_tick.events
  | portReset p => cases h; exact events_portReset p
  | subscribe p => cases h; exact events_subscribe p
  | setAxisConfig taking => cases h; exact events_setAxisConfig taking.port taking.half
  | startAxis p => cases h; exact events_startAxis p
  | stopAxis p => cases h; exact events_stopAxis p
  | clearFaults p => cases h; exact events_clearFaults p
  | armReference p => cases h; exact events_armReference p
  | setReference p => cases h; exact events_setReference p
  | dropReference p => cases h; exact events_dropReference p
  | claim p => cases h; exact events_claim p
  | release p => cases h; exact events_release p
  | driveLine p => cases h; exact events_driveLine p
  | book p => cases h; exact events_book p
  | cancel p => cases h; exact events_cancel p
  | cancelAxis p => cases h; exact events_cancelAxis p
  | snap p => cases h; exact events_takeRequest fun args => changes_snapReply p args
  | subscribeCapture p => cases h; exact events_subscribeCapture p
  | releaseSnapshot p => cases h; exact events_releaseSnapshot p
  | nop p => cases h; exact events_reading (withArgs_reading fun _ _ => rfl)
  | portStatus p => cases h; exact events_reading (withArgs_reading fun _ _ => rfl)
  | repeatFrame p => cases h; exact events_reading (repeatFrameReply_reading p)
  | readTime p => cases h; exact events_reading (withArgs_reading fun _ _ => rfl)
  | readAxis p => cases h; exact events_reading (withArgs_reading fun _ _ => rfl)
  | readClaims p => cases h; exact events_reading (withArgs_reading fun _ _ => rfl)
  | readEntry p => cases h; exact events_reading (readEntryReply_reading p)
  | listEntries p => cases h; exact events_reading (withArgs_reading fun _ _ => rfl)
  | readLines p => cases h; exact events_reading (withArgs_reading fun _ _ => rfl)
  | readSnapshot p => cases h; exact events_reading (readSnapshotReply_reading p)
  | readOldest p => cases h; exact events_reading (readOldestReply_reading p)
  | listHeld p => cases h; exact events_reading (withArgs_reading fun _ _ => rfl)

/-- A law that reads no waiting command and that every event keeps is kept by every step. -/
theorem step_keeps {Law : State → Prop} (event : ∀ {s t : State}, Event true s t → Law s → Law t)
    (queue : ∀ {s : State} {l : List Instr}, Law s → Law { s with pending := l }) {s t : State} (law : Law s)
    (h : step s = .next t) : Law t := by
  have all {u v : State} (events : Events true u v) (lawU : Law u) : Law v := by
    induction events with
    | refl => exact lawU
    | tail _ last ih => exact event last ih
  unfold step at h
  split at h
  · cases h
    exact law
  · exact all (exec_events h) (queue law)

/-- A law that reads no port, and that every change and device reset keep, is kept by every event. -/
theorem event_keeps {Law : State → Prop} (change : ∀ {s t : State}, Change true s t → Law s → Law t)
    (ports : ∀ {s : State} {x : Vector PortRec 3}, Law s → Law { s with ports := x })
    (reset : ∀ (s : State) (csLow : PortMask), Law (s.deviceReset csLow)) {s t : State} (h : Event true s t) (law : Law s) :
    Law t := by
  cases h with
  | change h => exact change h law
  | taken p tag rep waits effect =>
    refine ports ?_
    have popped : Law (s.popRequest p) := ports law
    clear law waits
    induction effect with
    | refl => exact popped
    | tail _ last ih => exact change last ih
  | fallen p => exact ports law
  | risen p sdi => exact ports law
  | reset csLow => exact reset s csLow

end Sys2Proof.Machine
end

section
/-! PROOFS. The laws of the device: the state after reset meets each of them, and every change keeps it. -/

namespace Sys2Proof.Machine

/-! ### The state after reset -/

@[simp] theorem reset_axis (a : AxisId) : State.reset.axis a = AxisRec.reset := replicate_get _ a
@[simp] theorem reset_claim (subj : Subject) : State.reset.claim subj = ClaimRec.free := replicate_get _ _
@[simp] theorem reset_line (l : LineId) : State.reset.line l = LineRec.reset := replicate_get _ l
@[simp] theorem reset_slot (i : SlotId) : State.reset.slot i = ⟨0#8, none⟩ := replicate_get _ i
@[simp] theorem reset_port (p : PortId) : State.reset.port p = PortRec.reset := replicate_get _ p
@[simp] theorem reset_snap (i : Fin 16) : State.reset.snaps.get i = none := replicate_get _ i
@[simp] theorem reset_booked (p : PortId) : State.reset.booked.get p = 0 := replicate_get _ p
@[simp] theorem reset_holds (p : PortId) : State.reset.holds.get p = 0 := replicate_get _ p
@[simp] theorem reset_nextSerial (a : AxisId) : State.reset.nextSerial.get a = 0 := replicate_get _ a

theorem deviceReset_port (s : State) (csLow : PortMask) (p : PortId) :
    (s.deviceReset csLow).port p = { PortRec.reset with exchange := exchangeAfterReset (hasPort csLow p) } :=
  ofFn_get _ p

/-- The record of an axis after reset meets the laws of one axis (R14, R30, R34, R44). -/
theorem axisReset_laws : (AxisRec.reset.cfg.policy = .any → AxisRec.reset.debt = 0) ∧ AxisRec.reset.Backed
    ∧ AxisRec.reset.Placed := by
  unfold AxisRec.Backed AxisRec.Placed
  decide

theorem reset_ratchetLaw : State.reset.RatchetLaw := by
  intro a
  rw [reset_axis]
  exact axisReset_laws.1

theorem reset_countingLaw : State.reset.CountingLaw := by
  intro a
  rw [reset_axis]
  exact axisReset_laws.2.1

theorem reset_positionLaw : State.reset.PositionLaw := by
  intro a
  rw [reset_axis]
  exact axisReset_laws.2.2

theorem reset_armedLaw : State.reset.ArmedLaw := by
  intro i e here
  rw [reset_slot] at here
  cases here

theorem reset_claimLaw : State.reset.ClaimLaw := by
  refine ⟨fun subj => ?_, fun a => ?_⟩
  · rw [reset_claim]
    exact ⟨fun _ => rfl, by decide, rfl⟩
  · rw [reset_claim]
    rfl

theorem reset_poolLaw : State.reset.PoolLaw :=
  ⟨fun p => by simp [State.ownedBy], by simp⟩

theorem reset_lineEntryLaw : State.reset.LineEntryLaw := by
  intro i e l here
  rw [reset_slot] at here
  cases here

theorem reset_freeLineLaw : State.reset.FreeLineLaw := by
  intro l _
  rw [reset_line]
  exact ⟨rfl, rfl⟩

theorem reset_holdLaw : State.reset.HoldLaw :=
  ⟨fun i x held => by simp at held, fun p => by simp [State.readBy], fun p => by simp⟩

theorem reset_numberLaw : State.reset.NumberLaw :=
  ⟨fun i x held => by simp at held, fun i j x y held => by simp at held, by decide, by decide⟩

theorem reset_queueLaw : State.reset.QueueLaw := fun p => by simp [PortRec.reset]

theorem reset_noticeLaw : State.reset.NoticeLaw := fun p => by simp [PortRec.NoticesDistinct, PortRec.reset]

theorem reset_serialLaw : State.reset.SerialLaw :=
  ⟨fun a => by simp, fun i e here => by simp at here, fun i j e f here => by simp at here⟩

theorem reset_firstFrameLaw : State.reset.FirstFrameLaw := fun p => by simp [PortRec.FirstFrame, PortRec.reset]

/-- Settles O60: the fourteen laws one by one. -/
theorem resetMeetsEveryLaw : Obligations.ResetMeetsEveryLaw :=
  ⟨reset_ratchetLaw, reset_countingLaw, reset_positionLaw, reset_armedLaw, reset_claimLaw, reset_poolLaw, reset_lineEntryLaw,
    reset_freeLineLaw, reset_holdLaw, reset_numberLaw, reset_queueLaw, reset_noticeLaw, reset_serialLaw, reset_firstFrameLaw⟩

/-! ### The laws of one axis (R14, R30, R34, R44) -/

theorem AxisRec.Kept.refl (r : AxisRec) : r.Kept r := ⟨id, id, id⟩

variable {s t : State}

theorem kept_of_axes {b : AxisId} (h : t.axes = s.axes) : (s.axis b).Kept (t.axis b) := by
  rw [State.axis, State.axis, h]
  exact .refl _

theorem place_touches (s : State) (p : PortId) (x : BookArgs) (i : SlotId) :
    ∃ y z n, s.place p x i = { s with pool := y, booked := z, nextSerial := n } := by
  obtain ⟨y, n, h⟩ := takeSerial_touches s x.axis
  unfold State.place
  rw [h]
  exact ⟨_, _, _, rfl⟩

theorem requeued_touches (s : State) (a : AxisId) (i : SlotId) (e : Entry) :
    ∃ y n, (s.takeSerial a).1.putEntry i e = { s with pool := y, nextSerial := n } := by
  obtain ⟨y, n, h⟩ := takeSerial_touches s a
  rw [h]
  exact ⟨_, _, rfl⟩

/-- Every change keeps what each axis record meets. -/
theorem Change.kept (h : Change true s t) (b : AxisId) : (s.axis b).Kept (t.axis b) := by
  cases h with
  | clock =>
    have same : ({ s with time := s.time + 1#48, axes := s.axes.map AxisRec.newTick } : State).axis b
        = (s.axis b).newTick := map_get _ _ b
    rw [same]
    exact ⟨id, id, id⟩
  | axis a r kept =>
    rw [handOver_axis, modAxis_axis]
    split
    next same => rwa [same]
    next => exact .refl _
  | freed subj =>
    obtain ⟨_, _, _, _, h⟩ := freeSubject_touches s subj
    exact kept_of_axes (by rw [h])
  | freedEntry i =>
    obtain ⟨_, _, h⟩ := freeEntry_touches s i
    exact kept_of_axes (by rw [h])
  | requeued i entry same state axis =>
    obtain ⟨_, _, h⟩ := requeued_touches s _ i _
    exact kept_of_axes (by rw [h])
  | booked p x i may room free =>
    obtain ⟨_, _, _, h⟩ := place_touches s p x i
    exact kept_of_axes (by rw [h])
  | _ => exact .refl _

/-- Settles O50: each law reads axis records one by one, which every change keeps (`Change.kept`). -/
theorem stepKeepsRatchetAndCountingLaws : Obligations.StepKeepsRatchetAndCountingLaws :=
  ⟨fun _ _ law => step_keeps (Law := State.RatchetLaw)
      (event_keeps (fun change law a => (change.kept a).ratchet (law a)) id fun _ _ => reset_ratchetLaw) id law,
    fun _ _ law => step_keeps (Law := State.CountingLaw)
      (event_keeps (fun change law a => (change.kept a).backed (law a)) id fun _ _ => reset_countingLaw) id law⟩

/-- Settles O51: every event keeps it, axis by axis, and the reset state has it. -/
theorem stepKeepsPositionsInRange : Obligations.StepKeepsPositionsInRange :=
  fun _ _ law => step_keeps (Law := State.PositionLaw)
    (event_keeps (fun change law a => (change.kept a).placed (law a)) id fun _ _ => reset_positionLaw) id law

/-! ### The entries after each change of the pool -/

/-- An entry where a serial was taken is the one before, but perhaps for its serial (R86). -/
theorem takeSerial_entry_from {a : AxisId} {i : SlotId} {e' : Entry} (here : (((s.takeSerial a).1).slot i).entry = some e') :
    ∃ e, (s.slot i).entry = some e ∧ e' = { e with serial := e'.serial } := by
  obtain ⟨n, h⟩ := takeSerial_entry s a i
  rw [h, Option.map_eq_some_iff] at here
  obtain ⟨e, entry, rfl⟩ := here
  exact ⟨e, entry, rfl⟩

theorem putEntry_entry {i j : SlotId} {e f : Entry} (here : ((s.putEntry i e).slot j).entry = some f) :
    j = i ∧ f = e ∨ j ≠ i ∧ (s.slot j).entry = some f := by
  rw [putEntry_slot] at here
  split at here
  next same => exact .inl ⟨same, (Option.some.inj here).symm⟩
  next other => exact .inr ⟨other, here⟩

theorem place_entry {p : PortId} {x : BookArgs} {i j : SlotId} {f : Entry}
    (here : ((s.place p x i).slot j).entry = some f) :
    j = i ∧ f = s.newEntry p x (s.takeSerial x.axis).2 ∨ j ≠ i ∧ (((s.takeSerial x.axis).1).slot j).entry = some f :=
  putEntry_entry (s := (s.takeSerial x.axis).1) here

/-! ### Entries ARMED (R97) -/

/-- The axes as they were, and each entry on the axis and in the state of one before, or ARMED only where it may be. -/
theorem State.ArmedLaw.ofEntries (law : s.ArmedLaw) (axes : t.axes = s.axes)
    (entries : ∀ i e', (t.slot i).entry = some e' →
      (∃ e, (s.slot i).entry = some e ∧ e'.axis = e.axis ∧ e'.state = e.state)
        ∨ (e'.state = .armed → (s.axis e'.axis).refState = .referenced)) : t.ArmedLaw := by
  intro i e' here armed
  rw [State.axis, axes]
  obtain ⟨e, entry, axis, state⟩ | may := entries i e' here
  · rw [axis]
    exact law i e entry (state ▸ armed)
  · exact may armed

theorem State.ArmedLaw.ofFewer (law : s.ArmedLaw) (axes : t.axes = s.axes) (fewer : s.FewerEntries t) : t.ArmedLaw :=
  law.ofEntries axes fun i e here => .inl ⟨e, fewer i e here, rfl, rfl⟩

/-- The entries that a hand-over leaves ARMED are those of an axis that is REFERENCED (R46). -/
theorem armedLaw_axis (law : s.ArmedLaw) (a : AxisId) (r : AxisRec) :
    ((s.modAxis a (fun _ => r)).handOver a (s.axis a).refState r.refState).ArmedLaw := by
  intro i e' here armed
  rw [handOver_entry, modAxis_slot, Option.map_eq_some_iff] at here
  obtain ⟨e, entry, rfl⟩ := here
  rw [handOver_axis, modAxis_axis]
  have before := law i e entry
  by_cases on : e.axis = a
  · subst on
    by_cases old : (s.axis e.axis).refState = .referenced <;> by_cases new : r.refState = .referenced
    all_goals simp_all
  · simp only [on, false_and, if_false] at armed ⊢
    exact before armed

theorem Change.armedLaw (h : Change true s t) (law : s.ArmedLaw) : t.ArmedLaw := by
  cases h with
  | clock =>
    intro i e here armed
    have same : ({ s with time := s.time + 1#48, axes := s.axes.map AxisRec.newTick } : State).axis e.axis
        = (s.axis e.axis).newTick := map_get _ _ _
    rw [same]
    exact law i e here armed
  | axis a r kept => exact armedLaw_axis law a r
  | freed subj =>
    obtain ⟨_, _, _, _, h⟩ := freeSubject_touches s subj
    exact law.ofFewer (by rw [h]) (freeSubject_fewer s subj)
  | without cond => exact law.ofFewer rfl (withoutEntries_fewer s cond)
  | freedEntry i =>
    obtain ⟨_, _, h⟩ := freeEntry_touches s i
    exact law.ofFewer (by rw [h]) (freeEntry_fewer s i)
  | rewritten i entry same state serial =>
    refine law.ofEntries rfl fun j f here => .inl ?_
    obtain ⟨rfl, rfl⟩ | ⟨-, before⟩ := putEntry_entry here
    · exact ⟨_, entry, same.axis, state⟩
    · exact ⟨f, before, rfl, rfl⟩
  | requeued i entry same state axis =>
    obtain ⟨_, _, h⟩ := requeued_touches s _ i _
    refine law.ofEntries (by rw [h]) fun j f here => .inl ?_
    obtain ⟨rfl, rfl⟩ | ⟨-, before⟩ := putEntry_entry here
    · exact ⟨_, entry, same.axis, state⟩
    · obtain ⟨e, first, same⟩ := takeSerial_entry_from before
      exact ⟨e, first, by rw [same], by rw [same]⟩
  | booked p x i may room free =>
    obtain ⟨_, _, _, h⟩ := place_touches s p x i
    refine law.ofEntries (by rw [h]) fun j f here => ?_
    obtain ⟨rfl, rfl⟩ | ⟨-, before⟩ := place_entry here
    · refine .inr fun armed => ?_
      simp only [State.newEntry, State.bookState] at armed ⊢
      by_contra notReferenced
      simp [notReferenced] at armed
    · obtain ⟨e, first, same⟩ := takeSerial_entry_from before
      exact .inl ⟨e, first, by rw [same], by rw [same]⟩
  | _ => exact law

/-- Settles O52: every change of the pool or of a reference state keeps it, and the reset state has it. -/
theorem stepKeepsArmedEntriesReferenced : Obligations.StepKeepsArmedEntriesReferenced :=
  fun _ _ law => step_keeps (Law := State.ArmedLaw) (event_keeps Change.armedLaw id fun _ _ => reset_armedLaw) id law

/-! ### Claim records (R65) -/

/-- A claim record after a renewal by use (R72). -/
theorem ClaimRec.Legal.used {c : ClaimRec} (h : c.Legal) (now : Time) : (c.used now).Legal := by
  unfold ClaimRec.used
  split
  next => exact h
  next lease =>
    obtain ⟨free, -, fits⟩ := h
    exact ⟨fun none => absurd (congrArg ClaimRec.lease (free none)) lease, by simp [lease], fits⟩

theorem ClaimRec.used_idle (c : ClaimRec) (now : Time) : (c.used now).idle = c.idle := by
  unfold ClaimRec.used
  split <;> rfl

/-- A claim record as a grant or a renewal stores it (R67, R68). -/
theorem legal_stored (p : PortId) (now : Time) {lease : Nat} (idle : Level) (fits : leaseWellFormed lease = true) :
    (⟨some p, lease, leaseExpiryTime now lease, idle⟩ : ClaimRec).Legal := by
  refine ⟨nofun, ?_, fits⟩
  unfold leaseExpiryTime
  by_cases h : lease = 0 <;> simp [h]

theorem legal_free : ClaimRec.free.Legal := ⟨fun _ => rfl, by decide, rfl⟩

/-- One claim record replaced by a legal one. -/
theorem State.ClaimLaw.ofRecord {subj : Subject} {c : ClaimRec} (law : s.ClaimLaw)
    (claims : ∀ x, t.claim x = if x = subj then c else s.claim x) (legal : c.Legal)
    (axis : ∀ a, subj = .axis a → c.idle = .low) : t.ClaimLaw := by
  obtain ⟨records, idle⟩ := law
  refine ⟨fun x => ?_, fun a => ?_⟩
  · rw [claims]
    split
    · exact legal
    · exact records x
  · rw [claims]
    split
    next same => exact axis a same.symm
    next => exact idle a

theorem State.ClaimLaw.ofClaims (law : s.ClaimLaw) (claims : t.claims = s.claims) : t.ClaimLaw := by
  unfold State.ClaimLaw State.claim at law ⊢
  rw [claims]
  exact law

/-- The claim records after a subject is freed (R71). -/
theorem freeSubject_claim (s : State) (subj x : Subject) :
    (s.freeSubject subj).claim x = if x = subj then ClaimRec.free else s.claim x := by
  cases subj with
  | axis a => exact modClaim_claim s _ x _
  | line l =>
    cases holder : (s.claim (.line l)).holder with
    | none =>
      rw [freeSubject_free_line s l holder, modLine_claim, modClaim_claim]
    | some q =>
      rw [freeSubject_line s l q holder, withoutEntries_claim, modLine_claim, modClaim_claim]

/-- The lines after a subject is freed (R71). -/
theorem freeSubject_line_record (s : State) (subj : Subject) (k : LineId) :
    (s.freeSubject subj).line k
      = if subj = .line k then { s.line k with level := .low, pulseEnd := none } else s.line k := by
  have driven (l : LineId) (u : State) (h : u.lines = s.lines) :
      (u.modLine l (fun r => { r with level := .low, pulseEnd := none })).line k
        = if Subject.line l = .line k then { s.line k with level := .low, pulseEnd := none } else s.line k := by
    have same : u.line = s.line := by
      funext j
      rw [State.line, h, State.line]
    rw [modLine_line, same]
    by_cases e : k = l
    · simp [e]
    · simp [e, Ne.symm e]
  cases subj with
  | axis a => rfl
  | line l =>
    cases holder : (s.claim (.line l)).holder with
    | none =>
      rw [freeSubject_free_line s l holder]
      exact driven l _ rfl
    | some q =>
      rw [freeSubject_line s l q holder, withoutEntries_line]
      exact driven l _ rfl

theorem Change.claimLaw (h : Change true s t) (law : s.ClaimLaw) : t.ClaimLaw := by
  cases h with
  | used subj =>
    refine law.ofRecord (used_claim s subj) ((law.1 subj).used s.time) ?_
    rintro a rfl
    rw [ClaimRec.used_idle]
    exact law.2 a
  | stored p subj lease idle holder fits axis =>
    exact law.ofRecord (fun x => modClaim_claim s subj x _) (legal_stored p s.time idle fits) axis
  | freed subj => exact law.ofRecord (freeSubject_claim s subj) legal_free fun _ _ => rfl
  | axis a r kept =>
    obtain ⟨_, h⟩ := handOver_touches (s.modAxis a (fun _ => r)) a (s.axis a).refState r.refState
    exact law.ofClaims (by rw [h]; rfl)
  | freedEntry i =>
    obtain ⟨_, _, h⟩ := freeEntry_touches s i
    exact law.ofClaims (by rw [h])
  | requeued i entry same state axis =>
    obtain ⟨_, _, h⟩ := requeued_touches s _ i _
    exact law.ofClaims (by rw [h])
  | booked p x i may room free =>
    obtain ⟨_, _, _, h⟩ := place_touches s p x i
    exact law.ofClaims (by rw [h])
  | _ => exact law

/-- Settles O53: every change of a claim record leaves a legal one, and the reset state has only free ones. -/
theorem stepKeepsClaimRecordsLegal : Obligations.StepKeepsClaimRecordsLegal :=
  fun _ _ law => step_keeps (Law := State.ClaimLaw) (event_keeps Change.claimLaw id fun _ _ => reset_claimLaw) id law

/-! ### Lines with their holders (R99, R109) -/

/-- The laws of R99 and R109 together. -/
def State.LineLaws (s : State) : Prop := s.LineEntryLaw ∧ s.FreeLineLaw

/-- The holders and the lines as they were, and no entry but those that were booked before. -/
theorem State.LineLaws.ofNoNewEntry (law : s.LineLaws) (new : s.NoNewEntry t) (claims : t.claims = s.claims)
    (lines : t.lines = s.lines) : t.LineLaws := by
  obtain ⟨entries, free⟩ := law
  refine ⟨fun i e' l here line => ?_, fun l none => ?_⟩
  · obtain ⟨e, before, same⟩ := new i e' here
    rw [State.claim, claims, same.owner]
    exact entries i e l before (by rw [← same.action]; exact line)
  · rw [State.line, lines]
    rw [State.claim, claims] at none
    exact free l none

/-- A freed line is LOW without a pulse and no entry names it; other lines keep holder and record (R71, R99, R109). -/
theorem lineLaws_freed (law : s.LineLaws) (subj : Subject) : (s.freeSubject subj).LineLaws := by
  obtain ⟨entries, free⟩ := law
  refine ⟨fun i e l here line => ?_, fun l none => ?_⟩
  · have before := entries i e l (freeSubject_fewer s subj i e here) line
    rw [freeSubject_claim]
    split
    next same =>
      subst same
      rw [freeSubject_line s l _ before, withoutEntries_entry] at here
      simp [line] at here
    next => exact before
  · rw [freeSubject_line_record]
    split
    next => exact ⟨rfl, rfl⟩
    next other =>
      rw [freeSubject_claim, if_neg (Ne.symm other)] at none
      exact free l none

/-- A grant or a renewal changes no holder but of a free record, and of a free line no entry speaks (R67, R68, R99). -/
theorem lineLaws_stored (law : s.LineLaws) {p : PortId} {subj : Subject} {lease : Nat} {idle : Level}
    (holder : (s.claim subj).holder = none ∨ (s.claim subj).holder = some p) : (s.storeClaim p subj lease idle).LineLaws := by
  obtain ⟨entries, free⟩ := law
  have claims (x : Subject) : ((s.storeClaim p subj lease idle).claim x).holder
      = if x = subj then some p else (s.claim x).holder := by
    rw [State.storeClaim, modClaim_claim]
    split <;> rfl
  refine ⟨fun i e l here line => ?_, fun l none => ?_⟩
  · have before := entries i e l here line
    rw [claims]
    split
    next same =>
      rw [← same, before] at holder
      exact (holder.resolve_left (Option.some_ne_none _)).symm
    next => exact before
  · rw [claims] at none
    split at none
    · cases none
    · exact free l none

/-- The line that an entry names is the line of its BOOK. -/
theorem bookAction_line {x : BookArgs} {l : LineId} (h : (bookAction x).line? = some l) :
    x.action.namesLine = true ∧ x.line = l := by
  unfold bookAction at h
  cases action : x.action <;> rw [action] at h <;> cases h <;> exact ⟨rfl, rfl⟩

/-- An entry that names a line is booked by the holder of that line (R87, R99). -/
theorem lineLaws_booked (law : s.LineLaws) {p : PortId} {x : BookArgs} (i : SlotId) (may : s.mayBook p x = true) :
    (s.place p x i).LineLaws := by
  obtain ⟨_, _, _, touches⟩ := place_touches s p x i
  have claims : (s.place p x i).claims = s.claims := by rw [touches]
  have lines : (s.place p x i).lines = s.lines := by rw [touches]
  refine ⟨fun j e l here line => ?_, fun l none => ?_⟩
  · rw [State.claim, claims]
    obtain ⟨rfl, rfl⟩ | ⟨-, before⟩ := place_entry here
    · obtain ⟨names, rfl⟩ := bookAction_line line
      rw [State.mayBook, names] at may
      exact (holdsClaim_iff s p _).mp (by simpa using may)
    · obtain ⟨f, first, same⟩ := takeSerial_entry_from before
      rw [same] at line ⊢
      exact law.1 j f l first line
  · rw [State.line, lines]
    rw [State.claim, claims] at none
    exact law.2 l none

theorem Change.lineLaws (h : Change true s t) (law : s.LineLaws) : t.LineLaws := by
  cases h with
  | freed subj => exact lineLaws_freed law subj
  | stored p subj lease idle holder fits axis => exact lineLaws_stored law holder
  | used subj =>
    have holder (x : Subject) : ((s.used subj).claim x).holder = (s.claim x).holder := by
      rw [used_claim]
      split
      next same =>
        rw [same, ClaimRec.used]
        split <;> rfl
      next => rfl
    exact ⟨fun i e l here line => (holder _).trans (law.1 i e l here line), fun l none => law.2 l ((holder _).symm.trans none)⟩
  | driven l f held =>
    refine ⟨law.1, fun k none => ?_⟩
    have other : k ≠ l := by
      rintro rfl
      exact held law.1 law.2 none
    rw [modLine_line_ne s other]
    exact law.2 k none
  | booked p x i may room free => exact lineLaws_booked law i may
  | axis a r kept =>
    obtain ⟨_, h⟩ := handOver_touches (s.modAxis a (fun _ => r)) a (s.axis a).refState r.refState
    exact law.ofNoNewEntry (handOver_noNewEntry _ a _ _) (by rw [h]; rfl) (by rw [h]; rfl)
  | without cond => exact law.ofNoNewEntry (withoutEntries_fewer s cond).noNewEntry rfl rfl
  | freedEntry i =>
    obtain ⟨_, _, h⟩ := freeEntry_touches s i
    exact law.ofNoNewEntry (freeEntry_fewer s i).noNewEntry (by rw [h]) (by rw [h])
  | rewritten i entry same state serial => exact law.ofNoNewEntry (putEntry_noNewEntry entry same) rfl rfl
  | requeued i entry same state axis =>
    obtain ⟨_, _, h⟩ := requeued_touches s _ i _
    exact law.ofNoNewEntry (requeued_noNewEntry entry same) (by rw [h]) (by rw [h])
  | _ => exact law

/-- Settles O55: the two laws together are kept by every change, and the reset state meets both. -/
theorem stepKeepsLinesWithTheirHolders : Obligations.StepKeepsLinesWithTheirHolders :=
  fun _ _ law => step_keeps (Law := State.LineLaws)
    (event_keeps Change.lineLaws id fun _ _ => ⟨reset_lineEntryLaw, reset_freeLineLaw⟩) id law

end Sys2Proof.Machine
end

section
/-! PROOFS. The laws of the device, continued: the accounts and serials of the compare pool, and the snapshot table. -/

namespace Sys2Proof.Machine

variable {s t : State}

/-! ### Counting places of a table -/

/-- Two conditions that differ at one place of a table at most. -/
theorem countP_finRange_except {n : Nat} {f g : Fin n → Bool} (i : Fin n) (same : ∀ j, j ≠ i → f j = g j) :
    (List.finRange n).countP f + (if g i then 1 else 0) = (List.finRange n).countP g + (if f i then 1 else 0) := by
  have apart := List.perm_cons_erase (List.mem_finRange i)
  have rest : ((List.finRange n).erase i).countP f = ((List.finRange n).erase i).countP g :=
    List.countP_congr fun j listed => by
      rw [same j (((List.nodup_finRange n).mem_erase_iff.mp listed).1)]
  rw [apart.countP_eq, apart.countP_eq, List.countP_cons, List.countP_cons, rest]
  omega

/-! ### The accounts of the pool (R81) -/

/-- The occupancy of the shared places, on the counts alone. -/
theorem shared_le_of_le (law : s.PoolLaw) (fewer : ∀ p, t.booked.get p ≤ s.booked.get p) :
    (t.booked.get 0 - 8) + (t.booked.get 1 - 8) + (t.booked.get 2 - 8) ≤ 40 := by
  have h0 := fewer 0
  have h1 := fewer 1
  have h2 := fewer 2
  have := law.2
  omega

theorem State.PoolLaw.ofOwners (law : s.PoolLaw) (booked : t.booked = s.booked)
    (owners : ∀ i, (t.slot i).entry.map Entry.owner = (s.slot i).entry.map Entry.owner) : t.PoolLaw := by
  refine ⟨fun p => ?_, by rw [booked]; exact law.2⟩
  rw [booked, law.1, State.ownedBy, State.ownedBy]
  simp only [owners]

/-- The entries of a port in two states that differ in one slot at most. -/
theorem ownedBy_except (p : PortId) (i : SlotId)
    (same : ∀ j, j ≠ i → (s.slot j).entry.map Entry.owner = (t.slot j).entry.map Entry.owner) :
    s.ownedBy p + (if (t.slot i).entry.map Entry.owner = some p then 1 else 0)
      = t.ownedBy p + (if (s.slot i).entry.map Entry.owner = some p then 1 else 0) := by
  have count := countP_finRange_except (f := fun j => decide ((s.slot j).entry.map Entry.owner = some p))
    (g := fun j => decide ((t.slot j).entry.map Entry.owner = some p)) i (fun j other => by rw [same j other])
  simp only [decide_eq_true_eq] at count
  exact count

theorem State.PoolLaw.freeEntry (law : s.PoolLaw) (i : SlotId) : (s.freeEntry i).PoolLaw := by
  have booked (p : PortId) := freeEntry_booked s i p
  refine ⟨fun p => ?_, shared_le_of_le law fun p => by rw [booked]; omega⟩
  have count := ownedBy_except (s := s.freeEntry i) (t := s) p i
    (fun j other => by rw [freeEntry_slot, if_neg fun h => other h.1])
  have freed : ((s.freeEntry i).slot i).entry = none := by
    rw [freeEntry_slot]
    split
    next => rfl
    next h => simpa using h
  have before := law.1 p
  rw [freed] at count
  simp only [Option.map_none, reduceCtorEq, if_false] at count
  rw [booked]
  omega

theorem State.PoolLaw.freeEntries (law : s.PoolLaw) (l : List SlotId) : (s.freeEntries l).PoolLaw := by
  induction l generalizing s with
  | nil => exact law
  | cons i rest ih => exact ih (law.freeEntry i)

theorem poolLaw_freed (law : s.PoolLaw) (subj : Subject) : (s.freeSubject subj).PoolLaw := by
  cases subj with
  | axis a => exact law
  | line l =>
    have cleared : ((s.modClaim (.line l) (fun _ => ClaimRec.free)).modLine l
        (fun r => { r with level := .low, pulseEnd := none })).PoolLaw := law
    exact cleared.freeEntries _

theorem takeSerial_owner (s : State) (a : AxisId) (i : SlotId) :
    (((s.takeSerial a).1).slot i).entry.map Entry.owner = (s.slot i).entry.map Entry.owner := by
  obtain ⟨n, h⟩ := takeSerial_entry s a i
  rw [h, Option.map_map]
  rfl

/-- A BOOK with room takes one more place, of the reserve or of the shared ones (R81, R88). -/
theorem poolLaw_booked (law : s.PoolLaw) {p : PortId} (x : BookArgs) {i : SlotId} (room : s.hasRoom p = true)
    (free : (s.slot i).entry = none) : (s.place p x i).PoolLaw := by
  obtain ⟨y, n, touches⟩ := takeSerial_touches s x.axis
  have booked (q : PortId) : (s.place p x i).booked.get q = s.booked.get q + if q = p then 1 else 0 := by
    have counted : (s.place p x i).booked = upd s.booked p (s.booked.get p + 1) := by
      unfold State.place State.countBooked
      rw [touches]
      rfl
    rw [counted, upd_get]
    split
    next same => rw [same]
    next => rfl
  have owners (j : SlotId) : ((s.place p x i).slot j).entry.map Entry.owner
      = if j = i then some p else (s.slot j).entry.map Entry.owner := by
    change ((((s.takeSerial x.axis).1).putEntry i _).slot j).entry.map Entry.owner = _
    rw [putEntry_slot]
    split
    next => rfl
    next => exact takeSerial_owner s x.axis j
  refine ⟨fun q => ?_, ?_⟩
  · have count := ownedBy_except (s := s.place p x i) (t := s) q i (fun j other => by rw [owners, if_neg other])
    have before := law.1 q
    rw [owners, if_pos rfl, free] at count
    simp only [Option.map_none, reduceCtorEq, if_false, Option.some.injEq, eq_comm (a := p)] at count
    rw [booked]
    omega
  · simp only [State.hasRoom, Bool.or_eq_true, decide_eq_true_eq] at room
    simp only [State.sharedOccupancy, Config.poolReserve, Config.poolShared] at room
    have bound := law.2
    simp only [booked]
    have ports : ∀ q : PortId, q = 0 ∨ q = 1 ∨ q = 2 := by decide
    rcases ports p with rfl | rfl | rfl
    all_goals
      simp only [Fin.reduceEq, if_true, if_false]
      omega

theorem Change.poolLaw (h : Change true s t) (law : s.PoolLaw) : t.PoolLaw := by
  cases h with
  | axis a r kept =>
    obtain ⟨_, h⟩ := handOver_touches (s.modAxis a (fun _ => r)) a (s.axis a).refState r.refState
    refine law.ofOwners (by rw [h]; rfl) fun i => ?_
    rw [handOver_entry, modAxis_slot, Option.map_map]
    congr 1
    funext e
    simp only [Function.comp]
    split
    · rfl
    · split <;> rfl
  | freed subj => exact poolLaw_freed law subj
  | without cond =>
    rw [← freeEntries_slotsWhere]
    exact law.freeEntries _
  | freedEntry i => exact law.freeEntry i
  | rewritten i entry same state serial =>
    refine law.ofOwners rfl fun j => ?_
    rw [putEntry_slot]
    split
    next here => rw [here, entry]; exact congrArg some same.owner
    next => rfl
  | @requeued _ _ i e e' a entry same state axis =>
    obtain ⟨_, _, h⟩ := requeued_touches s a i _
    refine law.ofOwners (by rw [h]) fun j => ?_
    rw [putEntry_slot]
    split
    next here => rw [here, entry]; exact congrArg some same.owner
    next => exact takeSerial_owner s a j
  | booked p x i may room free => exact poolLaw_booked law x room free
  | _ => exact law

/-- Settles O54: every change of the pool keeps the accounts, and the reset state is empty. -/
theorem stepKeepsPoolAccounts : Obligations.StepKeepsPoolAccounts :=
  fun _ _ law => step_keeps (Law := State.PoolLaw) (event_keeps Change.poolLaw id fun _ _ => reset_poolLaw) id law

/-! ### Booking serials (R86) -/

/-- The next serials as they were, and each entry on the axis and with the serial of one before. -/
theorem State.SerialLaw.ofEntries (law : s.SerialLaw) (next : t.nextSerial = s.nextSerial)
    (entries : ∀ i e', (t.slot i).entry = some e' → ∃ e, (s.slot i).entry = some e ∧ e'.axis = e.axis ∧ e'.serial = e.serial) :
    t.SerialLaw := by
  obtain ⟨bound, below, distinct⟩ := law
  rw [State.SerialLaw, next]
  refine ⟨bound, fun i e' here => ?_, fun i j e' f' here there axis serial => ?_⟩
  · obtain ⟨e, before, axis, serial⟩ := entries i e' here
    rw [axis, serial]
    exact below i e before
  · obtain ⟨e, beforeE, axisE, serialE⟩ := entries i e' here
    obtain ⟨f, beforeF, axisF, serialF⟩ := entries j f' there
    exact distinct i j e f beforeE beforeF (by rw [← axisE, ← axisF, axis]) (by rw [← serialE, ← serialF, serial])

theorem State.SerialLaw.ofFewer (law : s.SerialLaw) (next : t.nextSerial = s.nextSerial) (fewer : s.FewerEntries t) :
    t.SerialLaw :=
  law.ofEntries next fun i e here => ⟨e, fewer i e here, rfl, rfl⟩

/-- The list of an axis has at most as many entries as the pool has slots. -/
theorem axisList_length_le (s : State) (a : AxisId) : (s.axisList a).length ≤ 64 := by
  have h := (axisList_slots_nodup s a).length_le_card
  rwa [List.length_map, Fintype.card_fin] at h

theorem mem_axisList_slots {a : AxisId} {i : SlotId} :
    i ∈ (s.axisList a).map Prod.fst ↔ ∃ e, (s.slot i).entry = some e ∧ e.axis = a := by
  simp only [List.mem_map, Prod.exists, mem_axisList]
  constructor
  · rintro ⟨j, e, h, rfl⟩
    exact ⟨e, h⟩
  · rintro ⟨e, h⟩
    exact ⟨i, e, h, rfl⟩

/-- An entry after a renumbering: on the axis it has its place in the list as its serial, elsewhere nothing changed (R86). -/
theorem renumber_entry {a : AxisId} {i : SlotId} {e' : Entry} (here : ((s.renumber a).slot i).entry = some e') :
    ∃ e, (s.slot i).entry = some e ∧ e' = if e.axis = a
      then { e with serial := ((s.axisList a).map Prod.fst).idxOf i } else e := by
  rw [renumber_slot] at here
  split at here
  next listed =>
    obtain ⟨e, entry, axis⟩ := mem_axisList_slots.mp listed
    rw [entry] at here
    exact ⟨e, entry, by rw [if_pos axis]; exact (Option.some.inj here).symm⟩
  next other =>
    refine ⟨e', here, ?_⟩
    rw [if_neg fun axis => other (mem_axisList_slots.mpr ⟨e', here, axis⟩)]

theorem renumber_nextSerial (s : State) (a : AxisId) :
    (s.renumber a).nextSerial = upd s.nextSerial a (s.axisList a).length := rfl

theorem serialLaw_renumber (law : s.SerialLaw) (a : AxisId) : (s.renumber a).SerialLaw := by
  obtain ⟨bound, below, distinct⟩ := law
  have short := axisList_length_le s a
  refine ⟨fun b => ?_, fun i e' here => ?_, fun i j e' f' here there axis serial => ?_⟩
  · rw [renumber_nextSerial, upd_get]
    split
    · omega
    · exact bound b
  · obtain ⟨e, entry, rfl⟩ := renumber_entry here
    rw [renumber_nextSerial]
    split
    next axis =>
      have listed := List.idxOf_lt_length_of_mem (mem_axisList_slots.mpr ⟨e, entry, axis⟩)
      rw [List.length_map] at listed
      rw [axis, upd_get_same]
      exact listed
    next other =>
      rw [upd_get_ne _ other]
      exact below i e entry
  · obtain ⟨e, entryE, rfl⟩ := renumber_entry here
    obtain ⟨f, entryF, rfl⟩ := renumber_entry there
    by_cases axisE : e.axis = a
    · have axisF : f.axis = a := by
        by_contra other
        rw [if_pos axisE, if_neg other] at axis
        exact other (axis.symm.trans axisE)
      rw [if_pos axisE, if_pos axisF] at serial
      exact (List.idxOf_inj (mem_axisList_slots.mpr ⟨e, entryE, axisE⟩)).mp serial
    · have axisF : f.axis ≠ a := by
        intro same
        rw [if_neg axisE, if_pos same] at axis
        exact axisE (axis.trans same)
      rw [if_neg axisE, if_neg axisF] at axis serial
      exact distinct i j e f entryE entryF axis serial

/-- An axis that is ready to give a serial has one below 2^32 to give. -/
theorem serialLaw_ready (law : s.SerialLaw) (a : AxisId) :
    (s.readySerial a).SerialLaw ∧ (s.readySerial a).nextSerial.get a < 4294967296 := by
  unfold State.readySerial
  split
  next =>
    refine ⟨serialLaw_renumber law a, ?_⟩
    have short := axisList_length_le s a
    rw [renumber_nextSerial, upd_get_same]
    omega
  next some => exact ⟨law, lt_of_le_of_ne (law.1 a) some⟩

/-- An entry put on an axis with the serial just taken there. -/
theorem serialLaw_given (law : s.SerialLaw) {a : AxisId} (i : SlotId) {e : Entry} (axis : e.axis = a)
    (serial : e.serial = (s.takeSerial a).2) : ((s.takeSerial a).1.putEntry i e).SerialLaw := by
  obtain ⟨⟨bound, below, distinct⟩, room⟩ := serialLaw_ready law a
  have taken : e.serial = (s.readySerial a).nextSerial.get a := serial
  have next (b : AxisId) : ((s.takeSerial a).1.putEntry i e).nextSerial.get b
      = (s.readySerial a).nextSerial.get b + if b = a then 1 else 0 := by
    change (upd (s.readySerial a).nextSerial a ((s.readySerial a).nextSerial.get a + 1)).get b = _
    rw [upd_get]
    split
    next same => rw [same]
    next => rfl
  have others {j : SlotId} {f : Entry} (here : (((s.takeSerial a).1.putEntry i e).slot j).entry = some f) :
      j = i ∧ f = e ∨ j ≠ i ∧ ((s.readySerial a).slot j).entry = some f := putEntry_entry here
  refine ⟨fun b => ?_, fun j f here => ?_, fun j k f g here there axes serials => ?_⟩
  · rw [next]
    have := bound b
    split
    next same => rw [same]; omega
    next => omega
  · rw [next]
    obtain ⟨rfl, rfl⟩ | ⟨-, before⟩ := others here
    · rw [axis, taken, if_pos rfl]
      omega
    · have := below j f before
      omega
  · obtain ⟨rfl, rfl⟩ | ⟨-, before⟩ := others here
    · obtain ⟨rfl, rfl⟩ | ⟨-, old⟩ := others there
      · rfl
      · have := below k g old
        rw [← axes, axis, ← taken, serials] at this
        omega
    · obtain ⟨rfl, rfl⟩ | ⟨-, old⟩ := others there
      · have := below j f before
        rw [axes, axis, ← taken, serials] at this
        omega
      · exact distinct j k f g before old axes serials

theorem Change.serialLaw (h : Change true s t) (law : s.SerialLaw) : t.SerialLaw := by
  cases h with
  | axis a r kept =>
    obtain ⟨_, h⟩ := handOver_touches (s.modAxis a (fun _ => r)) a (s.axis a).refState r.refState
    refine law.ofEntries (by rw [h]; rfl) fun i e' here => ?_
    rw [handOver_entry, modAxis_slot, Option.map_eq_some_iff] at here
    obtain ⟨e, entry, rfl⟩ := here
    refine ⟨e, entry, ?_⟩
    split
    · exact ⟨rfl, rfl⟩
    · split <;> exact ⟨rfl, rfl⟩
  | freed subj =>
    obtain ⟨_, _, _, _, h⟩ := freeSubject_touches s subj
    exact law.ofFewer (by rw [h]) (freeSubject_fewer s subj)
  | without cond => exact law.ofFewer rfl (withoutEntries_fewer s cond)
  | freedEntry i =>
    obtain ⟨_, _, h⟩ := freeEntry_touches s i
    exact law.ofFewer (by rw [h]) (freeEntry_fewer s i)
  | rewritten i entry same state serial =>
    refine law.ofEntries rfl fun j f here => ?_
    obtain ⟨rfl, rfl⟩ | ⟨-, before⟩ := putEntry_entry here
    · exact ⟨_, entry, same.axis, serial⟩
    · exact ⟨f, before, rfl, rfl⟩
  | requeued i entry same state axis => exact serialLaw_given law i (same.axis.trans axis) rfl
  | booked p x i may room free => exact serialLaw_given (e := s.newEntry p x _) law i rfl rfl
  | _ => exact law

/-- Settles O59: every booking, requeueing and renumbering keeps it, and the reset state is empty. -/
theorem stepKeepsSerialsDistinct : Obligations.StepKeepsSerialsDistinct :=
  fun _ _ law => step_keeps (Law := State.SerialLaw) (event_keeps Change.serialLaw id fun _ _ => reset_serialLaw) id law

end Sys2Proof.Machine
end

section
/-! PROOFS. The laws of the device, continued: the snapshot table. -/

namespace Sys2Proof.Machine

variable {s t : State}

/-! ### Reader sets -/

/-- Whether port `p` is in the reader set of a slot. -/
def slotReads (p : PortId) (x : Option Snapshot) : Bool := x.any (fun y => hasPort y.readers p)

theorem readBy_eq (s : State) (p : PortId) : s.readBy p = (List.finRange 16).countP (fun i => slotReads p (s.snaps.get i)) := by
  unfold State.readBy
  congr 1
  funext i
  cases s.snaps.get i <;> rfl

theorem leaveReaders_held (p : PortId) (y : Snapshot) : leaveReaders p (some y)
    = if dropPort y.readers p = 0#3 then none else some { y with readers := dropPort y.readers p } := rfl

/-- A port that leaves a reader set reads the slot no more; the others read on (R134). -/
theorem slotReads_leaveReaders (p q : PortId) (x : Option Snapshot) :
    slotReads q (leaveReaders p x) = (slotReads q x && decide (q ≠ p)) := by
  cases x with
  | none => rfl
  | some y =>
    have left (r : PortId) : hasPort (dropPort y.readers p) r = (hasPort y.readers r && decide (r ≠ p)) := hasPort_maskOf _ r
    rw [leaveReaders_held]
    split
    next empty => exact ((maskOf_eq_zero _).mp empty q).symm
    next => exact left q

/-- A slot that a leaving port has not freed keeps its number, and has a reader (R123). -/
theorem leaveReaders_some {p : PortId} {x : Option Snapshot} {y : Snapshot} (h : leaveReaders p x = some y) :
    y.readers ≠ 0#3 ∧ ∃ z, x = some z ∧ y.number = z.number := by
  cases x with
  | none => cases h
  | some z =>
    rw [leaveReaders_held] at h
    split at h
    next => cases h
    next some => cases h; exact ⟨some, z, rfl, rfl⟩

/-- The snapshot that a crossing capture shows has its number and its readers (R126). -/
theorem showCrossing_slot (runs : List SampleRun) (s : State) (x : Crossing) (i : Fin 16) :
    ((s.showCrossing runs x).snaps.get i).map (fun y => (y.number, y.readers))
      = (s.snaps.get i).map (fun y => (y.number, y.readers)) := by
  unfold State.showCrossing
  dsimp only
  rw [map_get, Option.map_map]
  congr 1
  funext y
  simp only [Function.comp]
  split <;> rfl

/-! ### Reader sets and hold counts (R123) -/

/-- The same numbers of readers, and every slot as it was but for its axis parts. -/
theorem State.HoldLaw.ofSlots (law : s.HoldLaw) (holds : t.holds = s.holds)
    (slots : ∀ i, (t.snaps.get i).map Snapshot.readers = (s.snaps.get i).map Snapshot.readers) : t.HoldLaw := by
  obtain ⟨read, counts, bound⟩ := law
  have reads (p : PortId) (i : Fin 16) : slotReads p (t.snaps.get i) = slotReads p (s.snaps.get i) := by
    have h := congrArg (Option.any (fun m => hasPort m p)) (slots i)
    rw [Option.any_map, Option.any_map] at h
    exact h
  refine ⟨fun i x held => ?_, fun p => ?_, by rwa [holds]⟩
  · have h := slots i
    rw [held, Option.map_some, eq_comm, Option.map_eq_some_iff] at h
    obtain ⟨y, before, readers⟩ := h
    rw [← readers]
    exact read i y before
  · rw [holds, counts, readBy_eq, readBy_eq]
    simp only [reads]

/-- A capture gives one slot its readers, each of which had room (R128). -/
theorem holdLaw_filled (law : s.HoldLaw) {i : Fin 16} {cause : Cause} {time : Time} {readers : PortMask}
    (free : s.snaps.get i = none) (some : readers ≠ 0#3)
    (room : ∀ p, hasPort readers p = true → s.holds.get p < Config.holdLimit) : (s.fillSnap i cause time readers).HoldLaw := by
  obtain ⟨read, counts, bound⟩ := law
  have slot (j : Fin 16) : (s.fillSnap i cause time readers).snaps.get j
      = if j = i then Option.some ⟨s.nextCapture, time, cause, readers, s.axisParts⟩ else s.snaps.get j := upd_get _ i j _
  have holds (p : PortId) : (s.fillSnap i cause time readers).holds.get p
      = s.holds.get p + if hasPort readers p then 1 else 0 := ofFn_get _ p
  refine ⟨fun j x held => ?_, fun p => ?_, fun p => ?_⟩
  · rw [slot] at held
    split at held
    next => cases held; exact some
    next => exact read j x held
  · have count := countP_finRange_except (f := fun j => slotReads p ((s.fillSnap i cause time readers).snaps.get j))
      (g := fun j => slotReads p (s.snaps.get j)) i (fun j other => by rw [slot, if_neg other])
    have here : slotReads p ((s.fillSnap i cause time readers).snaps.get i) = hasPort readers p := by
      rw [slot, if_pos rfl]
      rfl
    have none : slotReads p (s.snaps.get i) = false := by rw [free]; rfl
    simp only [none, ← readBy_eq, Bool.false_eq_true, if_false] at count
    rw [holds, counts, ← here]
    exact count.symm
  · rw [holds]
    split
    next reads => exact room p reads
    next => exact bound p

/-- A port that leaves a slot it reads has one slot less (R134). -/
theorem holdLaw_released (law : s.HoldLaw) {i : Fin 16} {p : PortId} {x : Snapshot} (held : s.snaps.get i = some x)
    (reader : hasPort x.readers p = true) : (s.releaseSnap i p).HoldLaw := by
  obtain ⟨read, counts, bound⟩ := law
  have slot (j : Fin 16) : (s.releaseSnap i p).snaps.get j
      = if j = i then leaveReaders p (s.snaps.get i) else s.snaps.get j := upd_get _ i j _
  have holds (q : PortId) : (s.releaseSnap i p).holds.get q = if q = p then s.holds.get p - 1 else s.holds.get q :=
    upd_get _ p q _
  refine ⟨fun j y here => ?_, fun q => ?_, fun q => ?_⟩
  · rw [slot] at here
    split at here
    next => exact (leaveReaders_some here).1
    next => exact read j y here
  · have count := countP_finRange_except (f := fun j => slotReads q ((s.releaseSnap i p).snaps.get j))
      (g := fun j => slotReads q (s.snaps.get j)) i (fun j other => by rw [slot, if_neg other])
    rw [slot, if_pos rfl, slotReads_leaveReaders, ← readBy_eq, ← readBy_eq] at count
    rw [holds]
    split
    next same =>
      subst same
      have one : slotReads q (s.snaps.get i) = true := by rw [held]; exact reader
      simp only [one, ne_eq, not_true_eq_false, decide_false, Bool.and_false, Bool.false_eq_true, if_true, if_false] at count
      rw [counts]
      omega
    next other =>
      simp only [other, ne_eq, not_false_eq_true, decide_true, Bool.and_true] at count
      rw [counts]
      omega
  · rw [holds]
    split
    next => exact le_trans (Nat.sub_le _ _) (bound p)
    next => exact bound q

/-- A port that leaves every reader set reads no slot (R138). -/
theorem holdLaw_left (law : s.HoldLaw) (p : PortId) : (s.leaveAllSnaps p).HoldLaw := by
  obtain ⟨read, counts, bound⟩ := law
  have slot (j : Fin 16) : (s.leaveAllSnaps p).snaps.get j = leaveReaders p (s.snaps.get j) := map_get _ _ j
  have holds (q : PortId) : (s.leaveAllSnaps p).holds.get q = if q = p then 0 else s.holds.get q := upd_get _ p q _
  refine ⟨fun j y here => ?_, fun q => ?_, fun q => ?_⟩
  · rw [slot] at here
    exact (leaveReaders_some here).1
  · simp only [holds, readBy_eq, slot, slotReads_leaveReaders]
    by_cases same : q = p
    · simp [same]
    · simp only [same, ne_eq, not_false_eq_true, decide_true, Bool.and_true, if_false]
      rw [counts, readBy_eq]
  · rw [holds]
    split
    next => exact Nat.zero_le _
    next => exact bound q

/-! ### What no capture touches -/

/-- A change other than of the snapshot table. -/
theorem Change.snaps (h : Change true s t) :
    (t.snaps = s.snaps ∧ t.holds = s.holds ∧ t.nextCapture = s.nextCapture)
      ∨ (∃ i cause time readers, t = s.fillSnap i cause time readers ∧ s.nextCapture < Config.captureEnd
          ∧ s.snaps.get i = none ∧ readers ≠ 0#3 ∧ ∀ p, hasPort readers p = true → s.holds.get p < Config.holdLimit)
      ∨ (∃ i p x, t = s.releaseSnap i p ∧ s.snaps.get i = some x ∧ hasPort x.readers p = true)
      ∨ (∃ p, t = s.leaveAllSnaps p) ∨ ∃ runs x, t = s.showCrossing runs x := by
  cases h with
  | axis a r kept =>
    obtain ⟨_, h⟩ := handOver_touches (s.modAxis a (fun _ => r)) a (s.axis a).refState r.refState
    exact .inl (by rw [h]; exact ⟨rfl, rfl, rfl⟩)
  | freed subj =>
    obtain ⟨_, _, _, _, h⟩ := freeSubject_touches s subj
    exact .inl (by rw [h]; exact ⟨rfl, rfl, rfl⟩)
  | freedEntry i =>
    obtain ⟨_, _, h⟩ := freeEntry_touches s i
    exact .inl (by rw [h]; exact ⟨rfl, rfl, rfl⟩)
  | @requeued _ _ i e e' a entry same state axis =>
    obtain ⟨_, _, h⟩ := requeued_touches s a i { e' with serial := (s.takeSerial a).2 }
    exact .inl (by rw [h]; exact ⟨rfl, rfl, rfl⟩)
  | booked p x i may room free =>
    obtain ⟨_, _, _, h⟩ := place_touches s p x i
    exact .inl (by rw [h]; exact ⟨rfl, rfl, rfl⟩)
  | filled i cause time readers number free some room =>
    exact .inr (.inl ⟨i, cause, time, readers, rfl, number, free, some, room⟩)
  | released i p held reader => exact .inr (.inr (.inl ⟨i, p, _, rfl, held, reader⟩))
  | left p => exact .inr (.inr (.inr (.inl ⟨p, rfl⟩)))
  | shown runs x => exact .inr (.inr (.inr (.inr ⟨runs, x, rfl⟩)))
  | _ => exact .inl ⟨rfl, rfl, rfl⟩

theorem Change.holdLaw (h : Change true s t) (law : s.HoldLaw) : t.HoldLaw := by
  obtain ⟨snaps, holds, -⟩ | ⟨i, cause, time, readers, rfl, -, free, some, room⟩ | ⟨i, p, x, rfl, held, reader⟩ | ⟨p, rfl⟩
    | ⟨runs, x, rfl⟩ := h.snaps
  · exact law.ofSlots holds fun i => by rw [snaps]
  · exact holdLaw_filled law free some room
  · exact holdLaw_released law held reader
  · exact holdLaw_left law p
  · refine law.ofSlots rfl fun i => ?_
    have h := congrArg (Option.map Prod.snd) (showCrossing_slot runs s x i)
    rw [Option.map_map, Option.map_map] at h
    exact h

/-! ### Capture numbers (R124) -/

/-- No new number is given, and every HELD slot keeps its number. -/
theorem State.NumberLaw.ofSlots (law : s.NumberLaw) (next : t.nextCapture = s.nextCapture)
    (slots : ∀ i x, t.snaps.get i = some x → ∃ y, s.snaps.get i = some y ∧ x.number = y.number) : t.NumberLaw := by
  obtain ⟨below, distinct, range⟩ := law
  rw [State.NumberLaw, next]
  refine ⟨fun i x held => ?_, fun i j x y held held' same => ?_, range⟩
  · obtain ⟨y, before, number⟩ := slots i x held
    rw [number]
    exact below i y before
  · obtain ⟨x', before, number⟩ := slots i x held
    obtain ⟨y', before', number'⟩ := slots j y held'
    exact distinct i j x' y' before before' (by rw [← number, ← number', same])

/-- A capture takes the next number, which no slot has (R128). -/
theorem numberLaw_filled (law : s.NumberLaw) (i : Fin 16) (cause : Cause) (time : Time) (readers : PortMask)
    (number : s.nextCapture < Config.captureEnd) : (s.fillSnap i cause time readers).NumberLaw := by
  obtain ⟨below, distinct, first, last⟩ := law
  have next : (s.fillSnap i cause time readers).nextCapture = s.nextCapture + 1 := rfl
  have slot {j : Fin 16} {x : Snapshot} (held : (s.fillSnap i cause time readers).snaps.get j = some x) :
      j = i ∧ x.number = s.nextCapture ∨ j ≠ i ∧ s.snaps.get j = some x := by
    have h : (s.fillSnap i cause time readers).snaps.get j = _ := upd_get _ i j _
    rw [h] at held
    split at held
    next here => cases held; exact .inl ⟨here, rfl⟩
    next other => exact .inr ⟨other, held⟩
  refine ⟨fun j x held => ?_, fun j k x y held held' same => ?_, ?_⟩
  · rw [next]
    obtain ⟨-, new⟩ | ⟨-, before⟩ := slot held
    · omega
    · have := below j x before
      omega
  · obtain ⟨here, new⟩ | ⟨-, before⟩ := slot held
    · obtain ⟨here', -⟩ | ⟨-, before'⟩ := slot held'
      · rw [here, here']
      · have := below k y before'
        omega
    · obtain ⟨-, new'⟩ | ⟨-, before'⟩ := slot held'
      · have := below j x before
        omega
      · exact distinct j k x y before before' same
  · simp only [Config.captureEnd] at number
    rw [next]
    omega

theorem Change.numberLaw (h : Change true s t) (law : s.NumberLaw) : t.NumberLaw := by
  obtain ⟨snaps, -, next⟩ | ⟨i, cause, time, readers, rfl, number, -⟩ | ⟨i, p, x, rfl, -⟩ | ⟨p, rfl⟩
      | ⟨runs, x, rfl⟩ := h.snaps
  · exact law.ofSlots next fun i x held => ⟨x, by rw [← snaps, held], rfl⟩
  · exact numberLaw_filled law i cause time readers number
  · refine law.ofSlots rfl fun j y held => ?_
    have slot : (s.releaseSnap i p).snaps.get j = _ := upd_get _ i j _
    rw [slot] at held
    split at held
    next here => rw [here]; exact (leaveReaders_some held).2
    next => exact ⟨y, held, rfl⟩
  · refine law.ofSlots rfl fun j y held => ?_
    have slot : (s.leaveAllSnaps p).snaps.get j = _ := map_get _ _ j
    rw [slot] at held
    exact (leaveReaders_some held).2
  · refine law.ofSlots rfl fun j y held => ?_
    have h := congrArg (Option.map Prod.fst) (showCrossing_slot runs s x j)
    rw [held] at h
    simp only [Option.map_map, Option.map_some, Function.comp_def] at h
    obtain ⟨z, before, number⟩ := Option.map_eq_some_iff.mp h.symm
    exact ⟨z, before, number.symm⟩

/-- Settles O56: every change of the snapshot table keeps both laws, and the reset state is empty. -/
theorem stepKeepsSnapshotTable : Obligations.StepKeepsSnapshotTable :=
  ⟨fun _ _ law => step_keeps (Law := State.HoldLaw) (event_keeps Change.holdLaw id fun _ _ => reset_holdLaw) id law,
    fun _ _ law => step_keeps (Law := State.NumberLaw) (event_keeps Change.numberLaw id fun _ _ => reset_numberLaw) id law⟩

end Sys2Proof.Machine
end

section
/-! PROOFS. The laws of the device, continued: the queues of the host ports and their notices. -/

namespace Sys2Proof.Machine

variable {b : Bool} {s t : State} {r : PortRec}

/-! ### What a change can do to a port -/

theorem modPort_eq_at (s : State) (p q : PortId) (f : PortRec → PortRec) :
    (s.modPort p f).port q = if q = p then f (s.port q) else s.port q := by
  rw [modPort_port]
  split
  next same => rw [same]
  next => rfl

/-- A change brings a port a notice, replaces its subscriptions, resets it, or leaves it. -/
theorem Change.port (h : Change b s t) (q : PortId) :
    t.port q = s.port q ∨ (∃ n, t.port q = (s.port q).accept n)
      ∨ (∃ m c, t.port q = { s.port q with subs := m, capSubs := c }) ∨ t.port q = (s.port q).clear := by
  cases h with
  | axis a r kept =>
    obtain ⟨_, h⟩ := handOver_touches (s.modAxis a (fun _ => r)) a (s.axis a).refState r.refState
    exact .inl (by rw [h]; rfl)
  | told who n =>
    rw [told_port]
    split
    · exact .inr (.inl ⟨n, rfl⟩)
    · exact .inl rfl
  | subscribed p m c =>
    rw [modPort_eq_at]
    split
    · exact .inr (.inr (.inl ⟨m, c, rfl⟩))
    · exact .inl rfl
  | cleared p =>
    rw [modPort_eq_at]
    split
    · exact .inr (.inr (.inr rfl))
    · exact .inl rfl
  | freed subj =>
    obtain ⟨_, _, _, _, h⟩ := freeSubject_touches s subj
    exact .inl (by rw [h]; rfl)
  | freedEntry i =>
    obtain ⟨_, _, h⟩ := freeEntry_touches s i
    exact .inl (by rw [h]; rfl)
  | @requeued _ _ i e e' a entry same state axis =>
    obtain ⟨_, _, h⟩ := requeued_touches s a i { e' with serial := (s.takeSerial a).2 }
    exact .inl (by rw [h]; rfl)
  | booked p x i may room free =>
    obtain ⟨_, _, _, h⟩ := place_touches s p x i
    exact .inl (by rw [h]; rfl)
  | _ => exact .inl rfl

/-- A property of a port record that notices, subscriptions and a port reset keep is kept by all changes. -/
theorem Changes.port_keeps {P : PortRec → Prop} (accept : ∀ {r} n, P r → P (r.accept n))
    (subscribe : ∀ {r} m c, P r → P { r with subs := m, capSubs := c }) (clear : ∀ {r}, P r → P r.clear)
    (h : Changes b s t) {q : PortId} (before : P (s.port q)) : P (t.port q) := by
  induction h with
  | refl => exact before
  | tail _ last ih =>
    obtain h | ⟨n, h⟩ | ⟨m, c, h⟩ | h := last.port q
    · rw [h]; exact ih
    · rw [h]; exact accept n ih
    · rw [h]; exact subscribe m c ih
    · rw [h]; exact clear ih

/-! ### The rise of CS_N -/

/-- The port after the frame sent has been judged, before the request received is (R146). -/
def PortRec.sent (r : PortRec) (f : DeviceFrame) (voided : Bool) (clocked : Nat) : PortRec :=
  if isDelivered f voided clocked then r.deliver f else r.undelivered f voided

theorem rise_of_active {f : DeviceFrame} {voided : Bool} (h : r.exchange = .active f voided) (sdi : List Bool) :
    r.rise sdi = { (r.sent f voided (bytesOfBits sdi).length).judge (bytesOfBits sdi) with exchange := .idle } := by
  unfold PortRec.rise
  rw [h]
  rfl

theorem rise_of_idle (h : r.exchange = .idle) (sdi : List Bool) : r.rise sdi = r := by
  unfold PortRec.rise
  rw [h]

theorem rise_of_waitHigh (h : r.exchange = .waitHigh) (sdi : List Bool) : r.rise sdi = { r with exchange := .idle } := by
  unfold PortRec.rise
  rw [h]

/-! ### The combined queues (R150) -/

theorem joinRequest_waiting (h : r.waiting ≤ 8) (e : RequestEntry) : (r.joinRequest e).waiting ≤ 8 := by
  unfold PortRec.joinRequest
  split
  next room =>
    simp only [PortRec.waiting, Config.queueRoom, List.length_append, List.length_singleton] at room ⊢
    omega
  next => exact h

theorem judge_waiting (h : r.waiting ≤ 8) (received : List Byte) : (r.judge received).waiting ≤ 8 := by
  unfold PortRec.judge
  split
  · exact h
  · exact joinRequest_waiting h _
  · exact joinRequest_waiting h _

theorem deliver_waiting (h : r.waiting ≤ 8) (f : DeviceFrame) : (r.deliver f).waiting ≤ 8 := by
  unfold PortRec.waiting PortRec.deliver at *
  dsimp only
  split
  · rw [List.length_tail]
    omega
  · exact h

theorem rise_waiting (h : r.waiting ≤ 8) (sdi : List Bool) : (r.rise sdi).waiting ≤ 8 := by
  cases e : r.exchange with
  | idle => rwa [rise_of_idle e]
  | waitHigh => rwa [rise_of_waitHigh e]
  | active f voided =>
    rw [rise_of_active e]
    refine judge_waiting ?_ _
    unfold PortRec.sent
    split
    · exact deliver_waiting h _
    · exact h

theorem fall_waiting (r : PortRec) : r.fall.waiting = r.waiting := by
  unfold PortRec.fall
  split <;> rfl

/-- Taking a request leaves room for its response. -/
theorem Event.queueLaw (h : Event true s t) (law : s.QueueLaw) : t.QueueLaw := by
  have fewer {n : Nat} {u v : State} {q : PortId} (changes : Changes true u v) (bound : (u.port q).waiting ≤ n) :
      (v.port q).waiting ≤ n :=
    changes.port_keeps (P := fun r => r.waiting ≤ n) (fun _ => id) (fun _ _ => id) (fun _ => Nat.zero_le n) bound
  cases h with
  | change h => exact fun q => fewer (.single h) (law q)
  | @taken p tag rep u waits effect =>
    intro q
    have before := law q
    unfold State.pushResponse
    rw [modPort_eq_at]
    split
    next same =>
      subst same
      have popped : ((s.popRequest q).port q).waiting ≤ 7 := by
        have some := List.length_pos_of_ne_nil waits
        simp only [State.popRequest, modPort_port_same, PortRec.waiting, List.length_tail]
        omega
      have after := fewer effect popped
      simp only [PortRec.waiting, List.length_append, List.length_singleton] at after ⊢
      omega
    next other =>
      refine fewer effect ?_
      unfold State.popRequest
      rw [modPort_port_ne _ other]
      exact before
  | fallen p =>
    intro q
    rw [modPort_eq_at]
    split
    · exact (fall_waiting _).trans_le (law q)
    · exact law q
  | risen p sdi =>
    intro q
    rw [modPort_eq_at]
    split
    · exact rise_waiting (law q) sdi
    · exact law q
  | reset csLow =>
    intro q
    rw [deviceReset_port]
    exact Nat.zero_le 8

/-! ### Ports before their first frame (R160) -/

theorem judge_fresh (r : PortRec) (received : List Byte) : (r.judge received).fresh = r.fresh := by
  have join (e : RequestEntry) : (r.joinRequest e).fresh = r.fresh := by
    unfold PortRec.joinRequest
    split <;> rfl
  unfold PortRec.judge
  split
  · rfl
  · exact join _
  · exact join _

theorem rise_fresh (r : PortRec) (sdi : List Bool) : (r.rise sdi).fresh = r.fresh := by
  cases e : r.exchange with
  | idle => rw [rise_of_idle e]
  | waitHigh => rw [rise_of_waitHigh e]
  | active f voided =>
    rw [rise_of_active e]
    refine (judge_fresh _ _).trans ?_
    unfold PortRec.sent
    split <;> rfl

/-- A port that has selected a frame is under no constraint. -/
theorem firstFrame_of_used (used : r.fresh = false) : r.FirstFrame := fun fresh => by
  rw [used] at fresh
  cases fresh

theorem clear_firstFrame (law : r.FirstFrame) : r.clear.FirstFrame := fun fresh => by
  obtain ⟨-, -, -, -, -, -, closed⟩ := law fresh
  refine ⟨rfl, rfl, rfl, rfl, rfl, rfl, fun f voided => ?_⟩
  unfold PortRec.clear Exchange.void
  cases h : r.exchange with
  | active g w => exact absurd h (closed g w)
  | _ => exact Exchange.noConfusion

theorem fall_firstFrame (law : r.FirstFrame) : r.fall.FirstFrame := by
  unfold PortRec.fall
  split
  · exact firstFrame_of_used rfl
  · exact law

/-- With no exchange open a rise shows CS_N high at most. -/
theorem rise_firstFrame (law : r.FirstFrame) (sdi : List Bool) : (r.rise sdi).FirstFrame := fun fresh => by
  rw [rise_fresh] at fresh
  obtain ⟨requests, responses, number, delivered, dropped, seen, closed⟩ := law fresh
  cases h : r.exchange with
  | idle =>
    rw [rise_of_idle h]
    exact ⟨requests, responses, number, delivered, dropped, seen, closed⟩
  | waitHigh =>
    rw [rise_of_waitHigh h]
    exact ⟨requests, responses, number, delivered, dropped, seen, fun _ _ => Exchange.noConfusion⟩
  | active f voided => exact absurd h (closed f voided)

theorem Event.firstFrameLaw (h : Event true s t) (law : s.FirstFrameLaw) : t.FirstFrameLaw := by
  have kept {u v : State} {q : PortId} (changes : Changes true u v) (before : (u.port q).FirstFrame) : (v.port q).FirstFrame :=
    changes.port_keeps (P := PortRec.FirstFrame) (fun _ => id) (fun _ _ => id) clear_firstFrame before
  cases h with
  | change h => exact fun q => kept (.single h) (law q)
  | @taken p tag rep u waits effect =>
    intro q
    unfold State.pushResponse
    rw [modPort_eq_at]
    split
    next same =>
      subst same
      have used : (s.port q).fresh = false := Bool.eq_false_iff.mpr fun fresh => waits (law q fresh).1
      exact firstFrame_of_used (effect.port_keeps (P := fun r => r.fresh = false) (fun _ => id) (fun _ _ => id) id
        (by simp only [State.popRequest, modPort_port_same, used]))
    next other =>
      refine kept effect ?_
      unfold State.popRequest
      rw [modPort_port_ne _ other]
      exact law q
  | fallen p =>
    intro q
    rw [modPort_eq_at]
    split
    · exact fall_firstFrame (law q)
    · exact law q
  | risen p sdi =>
    intro q
    rw [modPort_eq_at]
    split
    · exact rise_firstFrame (law q) sdi
    · exact law q
  | reset csLow =>
    intro q _
    rw [deviceReset_port]
    refine ⟨rfl, rfl, rfl, rfl, rfl, rfl, fun f voided => ?_⟩
    unfold exchangeAfterReset
    split <;> exact Exchange.noConfusion

/-- Settles O57: every event keeps each of the two laws of the ports. -/
theorem stepKeepsPortQueuesBounded : Obligations.StepKeepsPortQueuesBounded :=
  ⟨fun _ _ law => step_keeps (Law := State.QueueLaw) Event.queueLaw id law,
    fun _ _ law => step_keeps (Law := State.FirstFrameLaw) Event.firstFrameLaw id law⟩

/-! ### Notices (R164) -/

/-- The kinds with the subjects that each can have (Table 9.1). -/
def noticeKeys : List (NoticeKind × Byte) :=
  [.compareFired, .entriesCancelled, .referenceChanged, .axisFault, .motionChanged].flatMap
      (fun k => (List.finRange 4).map (fun a => (k, subjectByte (.axis a))))
    ++ allSubjects.map (fun subj => (.claimLost, subjectByte subj))
    ++ [.snapshotReady, .snapshotSkipped].flatMap
      (fun k => [CauseClass.host, .cap0, .cap1, .compare].map (fun c => (k, causeClassByte c)))

theorem noticeKeys_length : noticeKeys.length = 40 := by decide

theorem key_mem_noticeKeys (n : Notice) : n.key ∈ noticeKeys := by
  have subject (subj : Subject) : subj ∈ allSubjects := by
    cases subj <;> simp [allSubjects]
  cases n with
  | claimLost subj =>
    exact List.mem_append_left _ (List.mem_append_right _ (List.mem_map.mpr ⟨subj, subject subj, rfl⟩))
  | snapshotReady c n newest =>
    refine List.mem_append_right _ (List.mem_flatMap.mpr ⟨.snapshotReady, by simp, List.mem_map.mpr ⟨c, ?_, rfl⟩⟩)
    cases c <;> simp
  | snapshotSkipped c n reason =>
    refine List.mem_append_right _ (List.mem_flatMap.mpr ⟨.snapshotSkipped, by simp, List.mem_map.mpr ⟨c, ?_, rfl⟩⟩)
    cases c <;> simp
  | compareFired a | entriesCancelled a | referenceChanged a | axisFault a | motionChanged a =>
    refine List.mem_append_left _ (List.mem_append_left _ (List.mem_flatMap.mpr ⟨_, ?_, List.mem_map.mpr ⟨a, by simp, rfl⟩⟩))
    simp [Notice.kind]

/-- Late parts agree with their entries in kind and subject. -/
def LatePartsAgree (l : List NoticeEntry) : Prop := ∀ e ∈ l, ∀ n, e.late = some n → n.key = e.notice.key

/-- Distinct keys are at most 40, so the bound is no condition of its own. -/
theorem PortRec.NoticesDistinct.intro (keys : (r.notices.map (fun e => e.notice.key)).Nodup) (late : LatePartsAgree r.notices) :
    r.NoticesDistinct := by
  refine ⟨keys, late, ?_⟩
  have bound := (keys.subperm (l₂ := noticeKeys) fun k listed => by
    obtain ⟨e, -, rfl⟩ := List.mem_map.mp listed
    exact key_mem_noticeKeys e.notice).length_le
  rwa [List.length_map, noticeKeys_length] at bound

theorem mergeLate_key {e : NoticeEntry} {n : Notice} (agree : ∀ m, e.late = some m → m.key = e.notice.key)
    (same : e.notice.key = n.key) : (mergeLate e.late n).key = e.notice.key := by
  unfold mergeLate
  split
  · exact same.symm
  next m late => exact (mergeNotice_key m n).trans (agree m late)

/-- An arrival leaves late parts that agree. -/
theorem enqueue_late (selected : Bool) (n : Notice) {l : List NoticeEntry} (agree : LatePartsAgree l) :
    LatePartsAgree (enqueue selected n l) := by
  induction l generalizing selected with
  | nil => simp [LatePartsAgree, enqueue]
  | cons e rest ih =>
    obtain ⟨head, tail⟩ := List.forall_mem_cons.mp agree
    unfold enqueue
    split
    next same =>
      refine List.forall_mem_cons.mpr ⟨fun m late => ?_, tail⟩
      unfold NoticeEntry.merge at late ⊢
      cases selected with
      | true =>
        cases late
        exact mergeLate_key head same
      | false => exact (head m late).trans (mergeNotice_key _ _).symm
    next => exact List.forall_mem_cons.mpr ⟨head, ih false tail⟩

theorem accept_distinct (n : Notice) (law : r.NoticesDistinct) : (r.accept n).NoticesDistinct := by
  obtain ⟨keys, late, -⟩ := law
  refine .intro ?_ (enqueue_late _ n late)
  change ((enqueue _ n r.notices).map _).Nodup
  rw [enqueue_keys]
  split
  next => exact keys
  next new => exact keys.append (List.nodup_singleton _) (by simpa using new)

/-- The queue after a delivery: the late part, if any, has the key that left (R168). -/
theorem settleDelivered_distinct {l : List NoticeEntry} (keys : (l.map (fun e => e.notice.key)).Nodup)
    (late : LatePartsAgree l) :
    ((settleDelivered l).map (fun e => e.notice.key)).Nodup ∧ LatePartsAgree (settleDelivered l) := by
  cases l with
  | nil => exact ⟨keys, late⟩
  | cons e rest =>
    obtain ⟨head, tail⟩ := List.forall_mem_cons.mp late
    rw [List.map_cons, List.nodup_cons] at keys
    cases h : e.late with
    | none =>
      simp only [settleDelivered, h]
      exact ⟨keys.2, tail⟩
    | some n =>
      simp only [settleDelivered, h, List.map_append, List.map_cons, List.map_nil]
      refine ⟨keys.2.append (List.nodup_singleton _) ?_, ?_⟩
      · rw [head n h]
        simpa using keys.1
      · refine List.forall_mem_append.mpr ⟨tail, ?_⟩
        simp

/-- The queue after a frame that was not delivered: the late part is folded in (R168). -/
theorem settleUndelivered_distinct {l : List NoticeEntry} (keys : (l.map (fun e => e.notice.key)).Nodup)
    (late : LatePartsAgree l) :
    ((settleUndelivered l).map (fun e => e.notice.key)).Nodup ∧ LatePartsAgree (settleUndelivered l) := by
  cases l with
  | nil => exact ⟨keys, late⟩
  | cons e rest =>
    obtain ⟨-, tail⟩ := List.forall_mem_cons.mp late
    cases h : e.late with
    | none =>
      simp only [settleUndelivered, h]
      exact ⟨keys, late⟩
    | some n =>
      simp only [settleUndelivered, h, List.map_cons, mergeNotice_key]
      exact ⟨keys, List.forall_mem_cons.mpr ⟨by simp, tail⟩⟩

theorem judge_notices (r : PortRec) (received : List Byte) : (r.judge received).notices = r.notices := by
  have join (e : RequestEntry) : (r.joinRequest e).notices = r.notices := by
    unfold PortRec.joinRequest
    split <;> rfl
  unfold PortRec.judge
  split
  · rfl
  · exact join _
  · exact join _

theorem PortRec.NoticesDistinct.ofNotices {r' : PortRec} (law : r.NoticesDistinct) (same : r'.notices = r.notices) :
    r'.NoticesDistinct := by
  rw [PortRec.NoticesDistinct, same]
  exact law

theorem deliver_distinct (law : r.NoticesDistinct) (f : DeviceFrame) : (r.deliver f).NoticesDistinct := by
  obtain ⟨keys, late, -⟩ := law
  obtain ⟨keys', late'⟩ := settleDelivered_distinct keys late
  refine .intro ?_ ?_
  all_goals
    unfold PortRec.deliver
    dsimp only
    split <;> assumption

theorem undelivered_distinct (law : r.NoticesDistinct) (f : DeviceFrame) (voided : Bool) :
    (r.undelivered f voided).NoticesDistinct := by
  obtain ⟨keys, late, -⟩ := law
  obtain ⟨keys', late'⟩ := settleUndelivered_distinct keys late
  refine .intro ?_ ?_
  all_goals
    unfold PortRec.undelivered
    dsimp only
    split <;> assumption

theorem rise_distinct (law : r.NoticesDistinct) (sdi : List Bool) : (r.rise sdi).NoticesDistinct := by
  cases e : r.exchange with
  | idle => rwa [rise_of_idle e]
  | waitHigh =>
    rw [rise_of_waitHigh e]
    exact law.ofNotices rfl
  | active f voided =>
    rw [rise_of_active e]
    have settled : (r.sent f voided (bytesOfBits sdi).length).NoticesDistinct := by
      unfold PortRec.sent
      split
      · exact deliver_distinct law f
      · exact undelivered_distinct law f voided
    exact settled.ofNotices (judge_notices _ _)

theorem fall_notices (r : PortRec) : r.fall.notices = r.notices := by
  unfold PortRec.fall
  split <;> rfl

theorem Event.noticeLaw (h : Event true s t) (law : s.NoticeLaw) : t.NoticeLaw := by
  have kept {u v : State} {q : PortId} (changes : Changes true u v) (before : (u.port q).NoticesDistinct) :
      (v.port q).NoticesDistinct :=
    changes.port_keeps accept_distinct (fun _ _ => id) (fun _ => .intro List.nodup_nil (by simp [LatePartsAgree, PortRec.clear]))
      before
  have other {u : State} {p : PortId} {f : PortRec → PortRec} (notices : ∀ r, (f r).notices = r.notices)
      (before : u.NoticeLaw) : (u.modPort p f).NoticeLaw := fun q => by
    rw [modPort_eq_at]
    split
    · exact (before q).ofNotices (notices _)
    · exact before q
  cases h with
  | change h => exact fun q => kept (.single h) (law q)
  | taken p tag rep waits effect =>
    have popped : (s.popRequest p).NoticeLaw := other (fun _ => rfl) law
    exact other (fun _ => rfl) fun q => kept effect (popped q)
  | fallen p => exact other fall_notices law
  | risen p sdi =>
    intro q
    rw [modPort_eq_at]
    split
    · exact rise_distinct (law q) sdi
    · exact law q
  | reset csLow =>
    intro q
    rw [deviceReset_port]
    exact (reset_port q ▸ reset_noticeLaw q : PortRec.reset.NoticesDistinct).ofNotices rfl

/-- Settles O58: every event keeps the keys of each notice queue distinct, and there are at most forty keys. -/
theorem stepKeepsNoticesDistinct : Obligations.StepKeepsNoticesDistinct :=
  fun _ _ law => step_keeps (Law := State.NoticeLaw) Event.noticeLaw id law

end Sys2Proof.Machine
end

section
/-! PROOFS. Samples: when one is taken, what the filters and the Decoder leave, the raw steps and where they land. -/

namespace Sys2Proof.Machine

variable {s : State} {a : AxisId}

/-! ### Replacing an axis record -/

/-- What a replacement does to the record it replaces is all that it is. -/
theorem modAxis_congr {f g : AxisRec → AxisRec} (h : f (s.axis a) = g (s.axis a)) : s.modAxis a f = s.modAxis a g := by
  unfold State.modAxis
  rw [h]

theorem toldSubscribers_modAxis (s : State) (bit : Nat) (n : Notice) (a : AxisId) (f : AxisRec → AxisRec) :
    (s.toldSubscribers bit n).modAxis a f = (s.modAxis a f).toldSubscribers bit n := rfl

/-! ### When a sample is taken, and the filters (R1, R3, R6) -/

theorem takesSample_iff (s : State) (a : AxisId) (ph : ClkPhase) : s.takesSample a ph = true ↔ s.SampleDue a ph := by
  have clock : isSampleInstant ((s.axis a).dividerIn ph) s.time ph = true
      ↔ (2 * s.time.toNat + (if ph = .second then 1 else 0))
          % 2 ^ (if ph = .second then (s.axis a).dividers.second else (s.axis a).dividers.first) = 0 := by
    cases ph <;> exact decide_eq_true_iff
  have high (l : Level) : isHigh l = true ↔ l = .high := by cases l <;> decide
  have window : s.windowOpen (s.axis a).cfg.window = true
      ↔ ((s.axis a).cfg.window = .qw0 → (s.qw.get 0).accepted = .high)
        ∧ ((s.axis a).cfg.window = .qw1 → (s.qw.get 1).accepted = .high) := by
    cases (s.axis a).cfg.window <;> simp [State.windowOpen, high]
  rw [State.takesSample, Bool.and_eq_true, clock, window]
  rfl

theorem filterStep_iff (depth : Nat) (raw : Level) (f g : FilterRec) : FilterStep depth raw f g ↔ g = filterRun depth raw f := by
  unfold FilterStep filterRun
  by_cases same : raw = f.accepted
  · simp [same]
  · by_cases full : f.run + 1 = depth <;> simp [same, full]

/-- The three runs of a sample, as the record they leave. -/
theorem filtered_eq {r : AxisRec} {rawA rawB rawZ : Level} {A B Z : FilterRec} (hA : FilterStep r.cfg.depth rawA r.filtA A)
    (hB : FilterStep r.cfg.depth rawB r.filtB B) (hZ : FilterStep r.cfg.depth rawZ r.filtZ Z) :
    r.filtered rawA rawB rawZ = { r with filtA := A, filtB := B, filtZ := Z } := by
  rw [(filterStep_iff _ _ _ _).mp hA, (filterStep_iff _ _ _ _).mp hB, (filterStep_iff _ _ _ _).mp hZ]
  rfl

theorem exec_sample_of_due {ph : ClkPhase} (due : s.SampleDue a ph) (between : List Between) (rawA rawB rawZ : Level) :
    exec (.sampleTaken a ⟨ph, between⟩ rawA rawB rawZ) s = .next (s.sample a ⟨ph, between⟩ rawA rawB rawZ) :=
  congrArg Host.Outcome.next (if_pos ((takesSample_iff s a ph).mpr due))

theorem exec_sample_of_not_due {ph : ClkPhase} (due : ¬ s.SampleDue a ph) (between : List Between) (rawA rawB rawZ : Level) :
    exec (.sampleTaken a ⟨ph, between⟩ rawA rawB rawZ) s = .next s :=
  congrArg Host.Outcome.next (if_neg fun h => due ((takesSample_iff s a ph).mp h))

/-! ### Stage 1 -/

/-- The axis as the Decoder leaves it: the filters have run and the code is the previous code (R7). -/
def State.coded (s : State) (a : AxisId) (rawA rawB rawZ : Level) : State :=
  s.modAxis a (fun r => { r.filtered rawA rawB rawZ with prevCode := some (r.filtered rawA rawB rawZ).code })

/-- What is to come of a sample after stage 1 (R15). -/
def State.begun (s : State) (a : AxisId) (rawA rawB rawZ : Level) : SampleRun :=
  let dec := decodeSample (s.axis a) ((s.axis a).filtered rawA rawB rawZ).code
  ⟨a, s.axis a, s.time, none, dec.steps, dec.index, dec.fault.toList⟩

theorem beginSample_of_counting (run : (s.axis a).run = .counting) (mode : (s.axis a).cfg.mode ≠ .off)
    (rawA rawB rawZ : Level) :
    s.beginSample a rawA rawB rawZ = (s.coded a rawA rawB rawZ, some (s.begun a rawA rawB rawZ)) := by
  unfold State.beginSample
  simp only [modAxis_axis_same, modAxis_modAxis]
  exact if_pos ⟨run, mode⟩

theorem beginSample_of_idle (idle : (s.axis a).run = .disabled ∨ (s.axis a).cfg.mode = .off) (rawA rawB rawZ : Level) :
    s.beginSample a rawA rawB rawZ = (s.modAxis a (fun r => r.filtered rawA rawB rawZ), none) := by
  unfold State.beginSample
  simp only [modAxis_axis_same]
  refine if_neg fun ⟨run, mode⟩ => ?_
  obtain disabled | off := idle
  · exact RunState.noConfusion (disabled.symm.trans run)
  · exact mode off

theorem sample_of_counting (run : (s.axis a).run = .counting) (mode : (s.axis a).cfg.mode ≠ .off) (ph : ClkPhase)
    (rawA rawB rawZ : Level) :
    s.sample a ⟨ph, []⟩ rawA rawB rawZ = (s.coded a rawA rawB rawZ).finishSample (s.begun a rawA rawB rawZ) := by
  rw [sample_nil, beginSample_of_counting run mode]

theorem sample_of_idle (idle : (s.axis a).run = .disabled ∨ (s.axis a).cfg.mode = .off) (ph : ClkPhase)
    (rawA rawB rawZ : Level) : s.sample a ⟨ph, []⟩ rawA rawB rawZ = s.modAxis a (fun r => r.filtered rawA rawB rawZ) := by
  rw [sample_nil, beginSample_of_idle idle]

theorem counting_or_idle (r : AxisRec) : (r.run = .counting ∧ r.cfg.mode ≠ .off) ∨ (r.run = .disabled ∨ r.cfg.mode = .off) := by
  by_cases mode : r.cfg.mode = .off
  · exact .inr (.inr mode)
  · cases run : r.run with
    | counting => exact .inl ⟨rfl, mode⟩
    | disabled => exact .inr (.inl rfl)

/-! ### What the stages leave of the filters -/

/-- The three filter records of an axis. -/
def AxisRec.filters (r : AxisRec) : FilterRec × FilterRec × FilterRec := (r.filtA, r.filtB, r.filtZ)

theorem fault_filters (s : State) (a : AxisId) (k : FaultKind) (t : Time) (st : RefState) :
    ((s.fault a k t st).axis a).filters = (s.axis a).filters := by
  rw [fault_axis, if_pos rfl]
  rfl

theorem changeReference_filters (s : State) (a : AxisId) (st : RefState) (ep : BitVec 16) :
    ((s.changeReference a st ep).axis a).filters = (s.axis a).filters := by
  rw [changeReference_axis, if_pos rfl]
  rfl

theorem oneStep_filters (s : State) (a : AxisId) (t : Time) (d : Dir) :
    ((s.oneStep a t d).axis a).filters = (s.axis a).filters := by
  have landed : ((s.land a t d).axis a).filters = (s.axis a).filters := by
    rw [land_axis_same]
    rfl
  have checked (u : State) : ((u.checkStep a t d).axis a).filters = (u.axis a).filters := by
    have counted : ((u.countStep a d).axis a).filters = (u.axis a).filters := by
      rw [State.countStep, modAxis_axis_same]
      rfl
    unfold State.checkStep State.missedIndex
    split
    · rw [fault_filters, modAxis_axis_same]
      exact counted
    · exact counted
  unfold State.oneStep
  split
  · rw [checked, offer_axis, landed]
  · exact landed

theorem indexEvent_filters (s : State) (a : AxisId) (t : Time) :
    ((s.indexEvent a t).axis a).filters = (s.axis a).filters := by
  have judged : ((s.judgeIndex a t).axis a).filters = (s.axis a).filters := by
    have checked (st : RefState) : ((s.checkIndex a t st).axis a).filters = (s.axis a).filters := by
      cases h : confirmPosition (s.axis a).cfg (s.axis a).pos (s.axis a).drift with
      | none =>
        rw [checkIndex_of_unconfirmed h, fault_filters, modAxis_axis_same]
        rfl
      | some p =>
        rw [checkIndex_of_confirmed h, changeReference_filters, modAxis_axis_same]
        rfl
    unfold State.judgeIndex
    split
    · rw [State.establish, changeReference_filters, modAxis_axis_same]
      rfl
    · exact checked _
    · exact checked _
    · rfl
    · rfl
  rw [State.indexEvent, State.zeroSince, modAxis_axis_same]
  exact judged

theorem runStages_filters (s : State) (a : AxisId) (t : Time) (steps : List Dir) (index : Bool) (faults : List FaultKind) :
    ((s.runStages a t steps index faults).axis a).filters = (s.axis a).filters := by
  have all (l : List Dir) (u : State) : (((u.allSteps a t l).1).axis a).filters = (u.axis a).filters := by
    induction l generalizing u with
    | nil => rfl
    | cons d rest ih => exact (ih (u.oneStep a t d)).trans (oneStep_filters u a t d)
  have indexed (u : State) : ((u.indexStage a t index).axis a).filters = (u.axis a).filters := by
    unfold State.indexStage
    split
    · exact indexEvent_filters u a t
    · rfl
  have faulted (l : List FaultKind) (u : State) : ((u.faultStage a t l).axis a).filters = (u.axis a).filters := by
    induction l generalizing u with
    | nil => rfl
    | cons k rest ih => exact (ih (u.sensorFault a t k)).trans (fault_filters u a k t _)
  exact ((faulted _ _).trans (indexed _)).trans (all _ _)

/-- Settles O4: by whether the axis counts. -/
theorem everySampleRunsTheThreeFilters : Obligations.EverySampleRunsTheThreeFilters := by
  intro s a ph rawA rawB rawZ
  refine ⟨fun due => ?_, fun due between => exec_sample_of_not_due due between rawA rawB rawZ⟩
  have run (raw : Level) (f : FilterRec) : FilterStep (s.axis a).cfg.depth raw f (filterRun (s.axis a).cfg.depth raw f) :=
    (filterStep_iff _ _ _ _).mpr rfl
  refine ⟨_, _, _, _, exec_sample_of_due due [] rawA rawB rawZ, run rawA _, run rawB _, run rawZ _, ?_⟩
  have filters : ((s.sample a ⟨ph, []⟩ rawA rawB rawZ).axis a).filters = ((s.axis a).filtered rawA rawB rawZ).filters := by
    obtain ⟨counting, mode⟩ | idle := counting_or_idle (s.axis a)
    · rw [sample_of_counting counting mode]
      refine (runStages_filters _ a _ _ _ _).trans ?_
      rw [State.finishOffer, State.coded]
      simp only [State.begun, modAxis_axis_same]
      rfl
    · rw [sample_of_idle idle, modAxis_axis_same]
  obtain ⟨filtA, filtBZ⟩ := Prod.mk.inj filters
  obtain ⟨filtB, filtZ⟩ := Prod.mk.inj filtBZ
  refine ⟨filtA, filtB, filtZ, fun idle => (sample_of_idle idle ph rawA rawB rawZ).trans (modAxis_congr rfl)⟩

/-! ### Stages 2 to 4 -/

/-- The raw steps made one after another, with the faults they raise (R15, R18). -/
theorem allSteps_eq_foldl (a : AxisId) (t : Time) (l : List Dir) (s : State) (raised : List FaultKind) :
    l.foldl (fun (x : State × List FaultKind) d => (x.1.oneStep a t d, x.2 ++ stepFaults (x.1.axis a) d)) (s, raised)
      = ((s.allSteps a t l).1, raised ++ (s.allSteps a t l).2) := by
  induction l generalizing s raised with
  | nil => rw [List.foldl_nil, State.allSteps, List.append_nil]
  | cons d rest ih =>
    rw [List.foldl_cons, ih, List.append_assoc]
    rfl

/-- A sample on an axis that decodes: the Decoder's state, then the stages by what it finds (R15). -/
theorem exec_sample_of_counting {ph : ClkPhase} {rawA rawB rawZ : Level} {A B Z : FilterRec} {code : Code}
    (due : s.SampleDue a ph) (run : (s.axis a).run = .counting) (mode : (s.axis a).cfg.mode ≠ .off)
    (hA : FilterStep (s.axis a).cfg.depth rawA (s.axis a).filtA A)
    (hB : FilterStep (s.axis a).cfg.depth rawB (s.axis a).filtB B)
    (hZ : FilterStep (s.axis a).cfg.depth rawZ (s.axis a).filtZ Z)
    (read : codeOf (s.axis a).cfg.mode A.accepted B.accepted Z.accepted = code) :
    exec (.sampleTaken a ⟨ph, []⟩ rawA rawB rawZ) s
      = .next ((s.modAxis a (fun r => { r with filtA := A, filtB := B, filtZ := Z, prevCode := some code })).runStages a s.time
          (decodeSample (s.axis a) code).steps (decodeSample (s.axis a) code).index
          (decodeSample (s.axis a) code).fault.toList) := by
  have filtered := filtered_eq hA hB hZ
  have coded : s.coded a rawA rawB rawZ
      = s.modAxis a (fun r => { r with filtA := A, filtB := B, filtZ := Z, prevCode := some code }) := by
    refine modAxis_congr ?_
    rw [filtered, ← read]
    rfl
  rw [exec_sample_of_due due, sample_of_counting run mode, coded, ← read]
  simp only [State.finishSample, State.begun, State.finishOffer, filtered]
  rfl

/-- The code of a sample, as the statements write it (Table 1.4). -/
theorem codeOf_eq (m : Mode) (x y z : Level) : codeOf m x y z = ⟨x, y, if m = .quadIndex ∨ m = .hall3 then z else .low⟩ := by
  cases m <;> rfl

/-- The invalid Hall codes (R11). -/
theorem sectorOf_eq_none (x y z : Level) : sectorOf ⟨x, y, z⟩ = none ↔ x = y ∧ y = z := by
  cases x <;> cases y <;> cases z <;> simp [sectorOf]

/-- A baseline that is no invalid Hall code yields nothing (R7, R11). -/
theorem decodeBaseline_of_valid {cfg : AxisConfig} {x y z : Level} (valid : cfg.mode = .hall3 → ¬ (x = y ∧ y = z)) :
    decodeBaseline cfg (codeOf cfg.mode x y z) = .nothing := by
  refine if_neg fun ⟨hall, invalid⟩ => valid hall ?_
  rw [hall] at invalid
  exact (sectorOf_eq_none x y z).mp invalid

/-- Settles O5: such a sample decodes to nothing. -/
theorem baselineSampleOnlyStoresItsCode : Obligations.BaselineSampleOnlyStoresItsCode := by
  intro s a ph rawA rawB rawZ A B Z due run mode hA hB hZ m code kept
  have same : codeOf m A.accepted B.accepted Z.accepted = code := codeOf_eq m _ _ _
  have nothing : decodeSample (s.axis a) code = .nothing := by
    obtain prev | ⟨none, valid⟩ := kept
    · exact decodeSample_unchanged prev
    · rw [decodeSample_baseline none, ← same]
      exact decodeBaseline_of_valid valid
  rw [exec_sample_of_counting due run mode hA hB hZ same, nothing]
  rfl

/-! ### The raw step and where it lands (R33 to R38) -/

/-- The fields of a raw step, as the statements write them. -/
theorem rawStep_fields (r : AxisRec) (d : Dir) (t : Time) : r.rawStep d t = { r with
    lastDir := if d = .forward then .forward else .reverse
    motion := if d = .forward then .forward else .reverse
    lastStep := some t
    lastInterval := if r.timingRun = .opened ∧ r.lastDir = (if d = .forward then .forward else .reverse)
      then r.lastStep.map (fun t0 => min 4294967295 (t - t0).toNat) else none
    timingRun := .opened
    stall := if r.cfg.stallMs = 0 then r.stall else some (t + BitVec.ofNat 48 (r.cfg.stallMs * 10000)) } := by
  cases d <;> rfl

theorem rawStep_eq (s : State) (a : AxisId) (d : Dir) (t : Time) :
    s.rawStep a d t = if (s.axis a).motion = motionOf d then s.modAxis a (fun r => r.rawStep d t)
      else (s.modAxis a (fun r => r.rawStep d t)).toldSubscribers (8 + a.1) (.motionChanged a (motionOf d)) := by
  unfold State.rawStep
  rw [raiseSubscribed_eq]
  rfl

theorem oneStep_of_applies {d : Dir} (h : stepApplies (s.axis a) d = true) (t : Time) :
    s.oneStep a t d = ((s.land a t d).offer a d t).checkStep a t d := if_pos h

theorem land_of_applies {d : Dir} (h : stepApplies (s.axis a) d = true) (t : Time) :
    s.land a t d = ((s.rawStep a d t).setDebt a (ratchet (s.axis a).cfg.policy d (s.axis a).debt).debt).moveAxis a d := if_pos h

theorem land_of_not_applies {d : Dir} (h : stepApplies (s.axis a) d = false) (t : Time) :
    s.land a t d = (s.rawStep a d t).setDebt a (ratchet (s.axis a).cfg.policy d (s.axis a).debt).debt :=
  if_neg (Bool.eq_false_iff.mp h)

theorem accepts_iff (q : Qualifier) (d : Dir) :
    accepts q d = true ↔ q = .either ∨ q = .fwd ∧ d = .forward ∨ q = .rev ∧ d = .reverse := by
  cases q <;> cases d <;> decide

theorem matches_iff (e : Entry) (cpr : Nat) (p : Position) (d : Dir) : e.matches cpr p d = true
    ↔ e.state = .armed ∧ absPos cpr e.target = absPos cpr p
      ∧ (e.qual = .either ∨ e.qual = .fwd ∧ d = .forward ∨ e.qual = .rev ∧ d = .reverse) := by
  simp only [Entry.matches, Bool.and_eq_true, decide_eq_true_eq, accepts_iff]
  tauto

/-- The firing order is the list's, which at one target is the order of the serials (R85, R104). -/
theorem matching_serials (s : State) (a : AxisId) (d : Dir) :
    (s.matching a d).Pairwise (fun i j => ∀ e f, (s.slot i).entry = some e → (s.slot j).entry = some f → e.serial ≤ f.serial) := by
  refine List.pairwise_map.mpr (((axisList_sorted s a).filter _).imp_of_mem fun {x y} listed listed' before => ?_)
  obtain ⟨memX, fitsX⟩ := List.mem_filter.mp listed
  obtain ⟨memY, fitsY⟩ := List.mem_filter.mp listed'
  obtain ⟨-, targetX, -⟩ := (matches_iff _ _ _ _).mp fitsX
  obtain ⟨-, targetY, -⟩ := (matches_iff _ _ _ _).mp fitsY
  intro e f entryX entryY
  rw [(mem_axisList.mp memX).1] at entryX
  rw [(mem_axisList.mp memY).1] at entryY
  cases entryX
  cases entryY
  obtain less | ⟨-, serial⟩ := (entryLe_iff _ _ _).mp before
  · omega
  · exact serial

/-- Settles O31: the raw step as its fields, the landing as a change of position, and an offer as the firings of its matching
slots in list order. -/
theorem appliedStepIsOfferedWhereItLands : Obligations.AppliedStepIsOfferedWhereItLands := by
  refine ⟨fun s a t d => ?_, fun s a d t => ⟨fun i => ?_, ?_, matching_serials s a d, rfl⟩⟩
  · intro out dir motion stepped told counted landed
    have raw : s.rawStep a d t = told := by
      rw [rawStep_eq]
      simp only [rawStep_fields]
      cases d <;> rfl
    refine ⟨fun held => ?_, fun applied => ?_, ?_⟩
    · rw [oneStep_of_not_applies s a t d held, land_of_not_applies held, raw]
      rfl
    · rw [oneStep_of_applies applied, land_of_applies applied, raw]
      rfl
    · unfold stepFaults
      congr 1
      simp only [Bool.and_eq_true]
      rfl
  · rw [mem_matching]
    simp only [matches_iff]
  · exact (axisList_slots_nodup s a).sublist (List.filter_sublist.map _)

/-! ### Counting the distance, and the missed index (R60, R61) -/

theorem countSince_eq (d : Dir) (n : Int) :
    countSince d n = if d = .forward then min 2147483647 (n + 1) else max (-2147483648) (n - 1) := by
  cases d <;> rfl

theorem countStep_eq (s : State) (a : AxisId) (d : Dir) :
    s.countStep a d = s.modAxis a (fun r => { r with sinceIndex := countSince d (s.axis a).sinceIndex }) :=
  modAxis_congr rfl

theorem indexMissed_iff (r : AxisRec) : r.indexMissed = true
    ↔ r.cfg.mode = .quadIndex ∧ (r.refState = .referenced ∨ r.refState = .suspect)
      ∧ r.cfg.cpr + r.cfg.tolerance < r.sinceIndex.natAbs := by
  simp only [AxisRec.indexMissed, Bool.and_eq_true, Bool.or_eq_true, decide_eq_true_eq, and_assoc]

/-- Settles O20: the count as a saturating sum, then by whether the distance is missed. -/
theorem missedIndexCheck : Obligations.MissedIndexCheck := by
  intro s a d t r n counted missed
  have since : countSince d (s.axis a).sinceIndex = n := countSince_eq d _
  have count : s.countStep a d = counted := by rw [countStep_eq, since]
  have check : (counted.axis a).indexMissed = true ↔ missed := by
    rw [modAxis_axis_same, indexMissed_iff]
  refine ⟨fun h => ?_, fun h => ?_⟩
  · rw [count, State.missedIndex, if_pos (check.mpr h), modAxis_modAxis, modAxis_axis_same]
    rfl
  · rw [count, State.missedIndex, if_neg (mt check.mp h)]

/-! ### A sample of one plain step -/

/-- With no ARMED entry on the axis an offer fires nothing (R103). -/
theorem offer_of_none_armed {d : Dir} (held : ∀ i e, (s.slot i).entry = some e → e.axis = a → e.state = .held) (t : Time) :
    s.offer a d t = s := by
  have none : s.matching a d = [] := List.eq_nil_iff_forall_not_mem.mpr fun i listed => by
    obtain ⟨e, entry, axis, fits⟩ := mem_matching.mp listed
    obtain ⟨armed, -⟩ := (matches_iff _ _ _ _).mp fits
    exact EntryState.noConfusion ((held i e entry axis).symm.trans armed)
  rw [State.offer, none, List.foldl_nil]

/-- Outside QUAD_INDEX no index is missed (R61). -/
theorem missedIndex_of_mode (h : (s.axis a).cfg.mode ≠ .quadIndex) (t : Time) : s.missedIndex a t = s :=
  if_neg fun missed => h ((indexMissed_iff _).mp missed).1

/-- A raw step with policy ANY and no debt, no ARMED entry, outside QUAD_INDEX: its fields, the move and the distance. -/
theorem oneStep_of_plain {d : Dir} (policy : (s.axis a).cfg.policy = .any) (debt : (s.axis a).debt = 0)
    (mode : (s.axis a).cfg.mode ≠ .quadIndex)
    (held : ∀ i e, (s.slot i).entry = some e → e.axis = a → e.state = .held) (t : Time) :
    s.oneStep a t d = (s.rawStep a d t).modAxis a (fun r => { r with
      pos := stepPosition r.cfg.cpr d r.pos
      sinceIndex := countSince d r.sinceIndex }) := by
  have ratchet : ratchet (s.axis a).cfg.policy d (s.axis a).debt = ⟨true, 0, false⟩ := by rw [policy, debt, ratchet_any]
  have applies : stepApplies (s.axis a) d = true := by rw [stepApplies, ratchet]
  have landed := land_axis_same s a t d
  have held' : ∀ i e, ((s.land a t d).slot i).entry = some e → e.axis = a → e.state = .held := by
    intro i e
    rw [State.slot, land_pool]
    exact held i e
  rw [oneStep_of_applies applies, offer_of_none_armed held', State.checkStep, missedIndex_of_mode]
  · rw [land_of_applies applies, ratchet]
    simp only [State.setDebt, State.moveAxis, State.countStep, modAxis_modAxis]
    refine modAxis_congr ?_
    rw [rawStep_axis_same]
    have kept : ((s.axis a).rawStep d t).debt = 0 := debt
    rw [← kept]
  · rw [State.countStep, modAxis_axis_same, landed]
    exact mode

/-- Settles O9: the stages as they stand, and a sample of one plain step as a case of them. -/
theorem sampleRunsTheFourStages : Obligations.SampleRunsTheFourStages := by
  refine ⟨fun s a ph rawA rawB rawZ A B Z due run mode hA hB hZ => ?_,
    fun s a ph rawA rawB rawZ A B Z d due run mode index policy debt hA hB hZ => ?_⟩
  · intro m code dec coded stepped indexed
    have same : codeOf m A.accepted B.accepted Z.accepted = code := codeOf_eq m _ _ _
    have steps : stepped = ((coded.allSteps a s.time dec.steps).1, (coded.allSteps a s.time dec.steps).2) :=
      allSteps_eq_foldl a s.time dec.steps coded []
    rw [exec_sample_of_counting due run mode hA hB hZ same]
    refine congrArg Host.Outcome.next ?_
    simp only [indexed, steps]
    rfl
  · intro code decoded wraps held dir motion moved
    have same : codeOf (s.axis a).cfg.mode A.accepted B.accepted Z.accepted = code := by
      rw [codeOf_eq]
      simp only [index, false_or, code]
    rw [exec_sample_of_counting due run mode hA hB hZ same, decoded]
    refine congrArg Host.Outcome.next ?_
    generalize coded : s.modAxis a (fun r => { r with filtA := A, filtB := B, filtZ := Z, prevCode := some code }) = u
    have record : u.axis a = { s.axis a with filtA := A, filtB := B, filtZ := Z, prevCode := some code } := by
      rw [← coded, modAxis_axis_same]
    have faults : stepFaults (u.axis a) d = [] := by
      rw [record, stepFaults, policy, debt, ratchet_any, wraps]
      rfl
    have plain : u.oneStep a s.time d = (u.rawStep a d s.time).modAxis a (fun r => { r with
        pos := stepPosition r.cfg.cpr d r.pos
        sinceIndex := countSince d r.sinceIndex }) := by
      refine oneStep_of_plain ?_ ?_ ?_ ?_ _
      · rw [record]; exact policy
      · rw [record]; exact debt
      · rw [record]; exact index
      · rw [← coded]; exact held
    have stages : u.runStages a s.time [d] false [] = u.oneStep a s.time d := by
      simp only [State.runStages, State.allSteps, faults]
      rfl
    have kept : (u.axis a).motion = (s.axis a).motion := by rw [record]
    have same : (u.modAxis a (fun r => r.rawStep d s.time)).modAxis a (fun r => { r with
        pos := stepPosition r.cfg.cpr d r.pos
        sinceIndex := countSince d r.sinceIndex }) = moved := by
      rw [← coded, modAxis_modAxis, modAxis_modAxis]
      refine modAxis_congr ?_
      simp only [rawStep_fields, countSince_eq]
      rfl
    have turned : motionOf d = motion := by cases d <;> rfl
    refine (stages.trans plain).trans ?_
    rw [rawStep_eq, kept, turned]
    split
    · exact same
    · rw [toldSubscribers_modAxis, same]

/-! ### Positions (R33, R34) -/

theorem stepWraps_iff {cpr : Nat} {p : Position} {d : Dir} (least : 2 ≤ cpr) (inRange : p.count < cpr) :
    stepWraps cpr d p = true ↔ d = .forward ∧ p = ⟨8388607, cpr - 1⟩ ∨ d = .reverse ∧ p = ⟨-8388608, 0⟩ := by
  obtain ⟨turns, count⟩ := p
  dsimp only at inRange
  cases d with
  | forward =>
    simp only [stepWraps, Bool.and_eq_true, Bool.not_eq_true', decide_eq_false_iff_not, decide_eq_true_eq,
      Position.mk.injEq, true_and, reduceCtorEq, false_and, or_false]
    unfold Config.turnsMax
    omega
  | reverse =>
    simp only [stepWraps, Bool.and_eq_true, decide_eq_true_eq, Position.mk.injEq, true_and, reduceCtorEq, false_and,
      false_or]
    unfold Config.turnsMin
    omega

theorem stepPosition_forward (cpr : Nat) (p : Position) : stepPosition cpr .forward p
    = if p.count + 1 < cpr then ⟨p.turns, p.count + 1⟩ else if p.turns = 8388607 then ⟨-8388608, 0⟩ else ⟨p.turns + 1, 0⟩ := rfl

theorem stepPosition_reverse (cpr : Nat) (p : Position) : stepPosition cpr .reverse p
    = if 0 < p.count then ⟨p.turns, p.count - 1⟩ else if p.turns = -8388608 then ⟨8388607, cpr - 1⟩
      else ⟨p.turns - 1, cpr - 1⟩ := rfl

/-- Off the ends of the turns range a step moves the absolute position by one (R33). -/
theorem stepPosition_absPos {cpr : Nat} {p : Position} {d : Dir} (least : 2 ≤ cpr) (inRange : p.count < cpr)
    (inner : stepWraps cpr d p = false) :
    absPos cpr (stepPosition cpr d p) = absPos cpr p + if d = .forward then 1 else -1 := by
  have outer := mt (stepWraps_iff least inRange).mpr (Bool.eq_false_iff.mp inner)
  obtain ⟨turns, count⟩ := p
  simp only [Position.mk.injEq, not_or, not_and] at outer
  dsimp only at inRange
  cases d with
  | forward =>
    have last := outer.1 rfl
    rw [stepPosition_forward]
    simp only [absPos, if_true]
    split
    · simp only
      omega
    · rw [if_neg (by omega)]
      simp only [add_mul, one_mul]
      omega
  | reverse =>
    have first := outer.2 rfl
    rw [stepPosition_reverse]
    simp only [absPos, reduceCtorEq, if_false]
    split
    · simp only
      omega
    · rw [if_neg (by omega)]
      simp only [sub_mul, one_mul]
      omega

/-- Settles O11: by the direction, and by whether the step stays within its turn. -/
theorem stepsMovePositionByOneCount : Obligations.StepsMovePositionByOneCount := by
  intro cpr p d least inRange q atEnd
  obtain ⟨count, -, -⟩ := (position_wellFormed_iff cpr p).mp inRange
  have wraps := stepWraps_iff (d := d) least count
  refine ⟨stepPosition_wellFormed d least inRange, ?_, ?_, fun inner => ?_, ?_, ?_, wraps⟩
  · rintro rfl room
    exact (stepPosition_forward cpr p).trans (if_pos room)
  · rintro rfl room
    exact (stepPosition_reverse cpr p).trans (if_pos room)
  · exact stepPosition_absPos least count (Bool.eq_false_iff.mpr (mt wraps.mp inner))
  · rintro rfl rfl
    exact (stepPosition_forward cpr _).trans ((if_neg (by dsimp only; omega)).trans (if_pos rfl))
  · rintro rfl rfl
    exact (stepPosition_reverse cpr _).trans ((if_neg (lt_irrefl 0)).trans (if_pos rfl))

end Sys2Proof.Machine
end

section
/-! PROOFS. A sample taken in parts, with captures and other samples between them. -/

namespace Sys2Proof.Machine

variable {s u v : State} {a b : AxisId} {r : SampleRun} {ph : ClkPhase}

/-! ### Making one part and finishing is finishing (R15, R104) -/

theorem finishSample_advance (s : State) (r : SampleRun) : (s.advance r).1.finishSample (s.advance r).2 = s.finishSample r := by
  rcases offer : r.offer with _ | ⟨d, _ | ⟨i, rest⟩⟩
  · rcases steps : r.steps with _ | ⟨d, rest⟩
    · rw [advance_done s offer steps]
    · rw [advance_step s offer steps]
      have step : (s.land r.axis r.time d).finishOffer
          ⟨r.axis, r.before, r.time,
            if stepApplies (s.axis r.axis) d then some (d, (s.land r.axis r.time d).matching r.axis d) else none,
            rest, r.index, r.faults ++ stepFaults (s.axis r.axis) d⟩ = s.oneStep r.axis r.time d := by
        cases applies : stepApplies (s.axis r.axis) d with
        | true => exact (oneStep_of_applies applies r.time).symm
        | false => exact (oneStep_of_not_applies s r.axis r.time d applies).symm
      have none : s.finishOffer r = s := by
        unfold State.finishOffer
        rw [offer]
      unfold State.finishSample
      rw [step, none, steps]
      simp only [State.runStages, State.allSteps, List.append_assoc]
  · rw [advance_offer_end s offer]
    unfold State.finishSample State.finishOffer
    rw [offer]
    rfl
  · rw [advance_firing s offer]
    unfold State.finishSample State.finishOffer
    rw [offer]
    rfl

theorem advance_axis_of (s : State) (r : SampleRun) : (s.advance r).2.axis = r.axis ∧ (s.advance r).2.before = r.before := by
  rcases offer : r.offer with _ | ⟨d, _ | ⟨i, rest⟩⟩
  · rcases steps : r.steps with _ | ⟨d, rest⟩
    · rw [advance_done s offer steps]
      exact ⟨rfl, rfl⟩
    · rw [advance_step s offer steps]
      exact ⟨rfl, rfl⟩
  · rw [advance_offer_end s offer]
    exact ⟨rfl, rfl⟩
  · rw [advance_firing s offer]
    exact ⟨rfl, rfl⟩

/-- A number of parts made one after another. -/
def parts (k : Nat) (x : State × SampleRun) : State × SampleRun := (fun x => x.1.advance x.2)^[k] x

theorem parts_succ (k : Nat) (x : State × SampleRun) : parts (k + 1) x = parts k (x.1.advance x.2) := rfl

theorem parts_run (k : Nat) (x : State × SampleRun) : (parts k x).2.axis = x.2.axis ∧ (parts k x).2.before = x.2.before := by
  induction k generalizing x with
  | zero => exact ⟨rfl, rfl⟩
  | succ k ih =>
    obtain ⟨axis, before⟩ := ih (x.1.advance x.2)
    obtain ⟨axis', before'⟩ := advance_axis_of x.1 x.2
    rw [parts_succ]
    exact ⟨axis.trans axis', before.trans before'⟩

/-- A sample that decodes begins as the Decoder leaves it. -/
theorem beginSample_run {rawA rawB rawZ : Level} (h : s.beginSample a rawA rawB rawZ = (u, some r)) :
    r.axis = a ∧ r.before = s.axis a := by
  obtain ⟨run, mode⟩ | idle := counting_or_idle (s.axis a)
  · rw [beginSample_of_counting run mode] at h
    cases h
    exact ⟨rfl, rfl⟩
  · rw [beginSample_of_idle idle] at h
    cases h

/-! ### One sample under way -/

theorem crossingsOf_none (s s' : State) (late : List AxisId) : crossingsOf s s' [] late = [] := if_pos rfl

/-- A part of the only sample under way crosses no other. -/
theorem take_go_alone (axis : r.axis = b) (late : List AxisId) :
    Weaving.take ph ⟨u, [r], []⟩ (.go b late) = ⟨(u.advance r).1, [(u.advance r).2], []⟩ := by
  have same := (advance_axis_of u r).1
  rw [take_go_of_some ph (w := ⟨u, [r], []⟩) (r := r) (by simp [axis])]
  simp [Weaving.event, Weaving.setRun, axis, same, crossingsOf_none]

theorem close_alone (u : State) (r : SampleRun) : Weaving.close ⟨u, [r], []⟩ = u.finishSample r := by
  simp [Weaving.close, finishRuns, crossingsOf_none]

/-- The parts of a sample with nothing else between them. -/
theorem take_parts (ph : ClkPhase) (k : Nat) (axis : r.axis = a) :
    (List.replicate k (Between.go a [])).foldl (Weaving.take ph) ⟨u, [r], []⟩
      = ⟨(parts k (u, r)).1, [(parts k (u, r)).2], []⟩ := by
  induction k generalizing u r with
  | zero => rfl
  | succ k ih =>
    rw [List.replicate_succ, List.foldl_cons, take_go_alone axis, ih ((advance_axis_of u r).1.trans axis)]
    rfl

/-- Parts alone, of whatever axes, leave a sample where it would end without them. -/
theorem close_take_goes {between : List Between} (goes : ∀ x ∈ between, ∃ b late, x = .go b late) (u : State) (r : SampleRun) :
    (between.foldl (Weaving.take ph) ⟨u, [r], []⟩).close = u.finishSample r := by
  induction between generalizing u r with
  | nil => exact close_alone u r
  | cons x rest ih =>
    obtain ⟨⟨b, late, rfl⟩, others⟩ := List.forall_mem_cons.mp goes
    rw [List.foldl_cons]
    by_cases axis : r.axis = b
    · rw [take_go_alone axis, ih others, finishSample_advance]
    · rw [take_go_of_none ph (w := ⟨u, [r], []⟩) (by simp [axis])]
      exact ih others u r

/-- With no sample under way no part is made. -/
theorem close_take_goes_idle {between : List Between} (goes : ∀ x ∈ between, ∃ b late, x = .go b late) (u : State) :
    (between.foldl (Weaving.take ph) ⟨u, [], []⟩).close = u := by
  induction between with
  | nil => rfl
  | cons x rest ih =>
    obtain ⟨⟨b, late, rfl⟩, others⟩ := List.forall_mem_cons.mp goes
    rw [List.foldl_cons, take_go_of_none ph (w := ⟨u, [], []⟩) rfl]
    exact ih others

theorem begin_of_begun {rawA rawB rawZ : Level} (h : s.beginSample a rawA rawB rawZ = (u, some r)) (runs : List SampleRun)
    (crossings : List Crossing) : Weaving.begin ⟨s, runs, crossings⟩ a rawA rawB rawZ = ⟨u, runs ++ [r], crossings⟩ := by
  simp [Weaving.begin, h]

theorem sample_of_begun {rawA rawB rawZ : Level} (h : s.beginSample a rawA rawB rawZ = (u, some r)) (between : List Between) :
    s.sample a ⟨ph, between⟩ rawA rawB rawZ = (between.foldl (Weaving.take ph) ⟨u, [r], []⟩).close := by
  unfold State.sample
  rw [begin_of_begun h]
  rfl

theorem sample_goes (s : State) (a : AxisId) (ph : ClkPhase) (rawA rawB rawZ : Level) {between : List Between}
    (goes : ∀ x ∈ between, ∃ b late, x = .go b late) :
    s.sample a ⟨ph, between⟩ rawA rawB rawZ = s.sample a ⟨ph, []⟩ rawA rawB rawZ := by
  rcases begun : s.beginSample a rawA rawB rawZ with ⟨u, _ | r⟩
  · have alone : Weaving.begin ⟨s, [], []⟩ a rawA rawB rawZ = ⟨u, [], []⟩ := by simp [Weaving.begin, begun]
    unfold State.sample
    rw [alone]
    exact close_take_goes_idle goes u
  · rw [sample_of_begun begun, sample_of_begun begun]
    exact (close_take_goes goes u r).trans (close_alone u r).symm

/-! ### Captures between the parts (R126) -/

theorem captureInto_nextCapture (s : State) (cause : Cause) (t : Time) (readers : PortMask) (p : Option PortId) :
    (s.captureInto cause t readers p).1.nextCapture = s.nextCapture
      ∨ (s.captureInto cause t readers p).1.nextCapture = s.nextCapture + 1 := by
  unfold State.captureInto
  split
  · exact .inl rfl
  · split
    · exact .inl (tell_nextCapture _ _ _)
    · exact .inr (tell_nextCapture _ _ _)

/-- A capture request takes one number at most (R128). -/
theorem capture_nextCapture (s : State) (cause : Cause) (t : Time) (cands : PortMask) (p : Option PortId) :
    (s.capture cause t cands p).1.nextCapture = s.nextCapture
      ∨ (s.capture cause t cands p).1.nextCapture = s.nextCapture + 1 := by
  unfold State.capture
  split
  · exact .inl rfl
  · rw [← tell_nextCapture (s := s) (s.pruned cands) p (.snapshotSkipped cause.cls 1 .holdLimit)]
    exact captureInto_nextCapture _ _ _ _ _

theorem runCap_nextCapture (s : State) (c : CapId) (raw : Level) :
    (s.runCap c raw).nextCapture = s.nextCapture ∨ (s.runCap c raw).nextCapture = s.nextCapture + 1 := by
  unfold State.runCap
  split
  · exact .inl rfl
  · exact capture_nextCapture (s.filterCap c raw) _ _ _ _

theorem snapReply_nextCapture (p : PortId) (s : State) (args : List Byte) :
    (snapReply p s args).1.nextCapture = s.nextCapture ∨ (snapReply p s args).1.nextCapture = s.nextCapture + 1 := by
  unfold snapReply withArgs
  split
  · exact .inl rfl
  · exact capture_nextCapture _ _ _ _ _

theorem snap_nextCapture (s : State) (p : PortId) :
    (s.takeRequest p .snap (snapReply p)).nextCapture = s.nextCapture
      ∨ (s.takeRequest p .snap (snapReply p)).nextCapture = s.nextCapture + 1 := by
  obtain same | ⟨cmd, tag, args, -, -, taken⟩ := takeRequest_cases s p .snap (snapReply p)
  · exact .inl (by rw [same])
  · rw [taken]
    exact snapReply_nextCapture p (s.popRequest p) args

/-- An edge or a SNAP between the parts of samples: what it leaves, and the numbers it can take. -/
structure CaptureEvent (ph : ClkPhase) (x : Between) (late : List AxisId) (u v : State) : Prop where
  take : ∀ runs crossings, Weaving.take ph ⟨u, runs, crossings⟩ x
    = ⟨v, runs, crossings ++ crossingsOf u v (runs.map SampleRun.axis) late⟩
  number : v.nextCapture = u.nextCapture ∨ v.nextCapture = u.nextCapture + 1

theorem captureEvent_of_mem {c : CapId} {raw : Level} {p : PortId} {late : List AxisId} {x : Between × Instr}
    (listed : x ∈ [(Between.edge c raw late, Instr.captureEdge c raw), (Between.snap p late, Instr.snap p)])
    (done : exec x.2 u = .next v) : CaptureEvent ph x.1 late u v := by
  simp only [List.mem_cons, List.not_mem_nil, or_false] at listed
  obtain rfl | rfl := listed
  · cases done
    exact ⟨fun runs crossings => by simp [Weaving.take, Weaving.event], runCap_nextCapture u c raw⟩
  · cases done
    exact ⟨fun runs crossings => by simp [Weaving.take, Weaving.event], snap_nextCapture u p⟩

/-- A capture that takes no number crosses nothing; one that takes a number crosses the samples under way with it. -/
theorem crossingsOf_same {axes late : List AxisId} (same : v.nextCapture = u.nextCapture) : crossingsOf u v axes late = [] := by
  unfold crossingsOf
  rw [same, Nat.sub_self]
  split <;> rfl

theorem crossingsOf_one {axes late : List AxisId} (some : axes ≠ []) (one : v.nextCapture = u.nextCapture + 1) :
    crossingsOf u v axes late = [⟨u.nextCapture, axes, late⟩] := by
  unfold crossingsOf
  rw [one, Nat.add_sub_cancel_left, if_neg some]
  rfl

/-- The axis part of R125, as the statements write it. -/
theorem part_eq (r : AxisRec) : r.part = if r.run = .counting then
    some ⟨r.pos, r.lastDir, r.motion, r.refState, r.epoch, r.lastStep, r.lastInterval, r.faults.set⟩ else none := by
  unfold AxisRec.part
  cases r.run <;> rfl

/-- A crossing of one sample replaces the part of its axis in the snapshot it took (R126). -/
theorem showCrossing_alone (axis : r.axis = a) (t : State) (n : Nat) (late : List AxisId) :
    State.showCrossing [r] t ⟨n, [a], late⟩ = { t with snaps := t.snaps.map (fun y => y.map (fun y =>
      if y.number = n then { y with parts := upd y.parts a (if a ∈ late then (t.axis a).part else r.before.part) } else y)) } := by
  unfold State.showCrossing
  congr 2
  funext y
  congr 1
  funext y
  refine if_congr Iff.rfl (congrArg (fun p => { y with parts := p }) (table_ext fun b => ?_)) rfl
  rw [ofFn_get, upd_get]
  unfold crossedPart
  by_cases here : b = a
  · subst here
    simp [axis]
  · simp [here]

/-! ### Two samples under way -/

/-- A part of the second of two samples crosses the first at most. -/
theorem take_go_second {q : SampleRun} (axisA : r.axis = a) (axisB : q.axis = b) (other : b ≠ a) (late : List AxisId)
    (crossings : List Crossing) :
    Weaving.take ph ⟨u, [r, q], crossings⟩ (.go b late)
      = ⟨(u.advance q).1, [r, (u.advance q).2], crossings ++ crossingsOf u (u.advance q).1 [a] late⟩ := by
  have same := (advance_axis_of u q).1
  have apart : ¬ a = b := fun h => other h.symm
  rw [take_go_of_some ph (w := ⟨u, [r, q], crossings⟩) (r := q) (by simp [axisA, axisB, apart])]
  simp [Weaving.event, Weaving.setRun, axisA, axisB, same, apart, other]

/-- The numbers of crossings are taken after the state they come from (R128). -/
theorem mem_crossingsOf {axes late : List AxisId} {x : Crossing} (h : x ∈ crossingsOf u v axes late) :
    u.nextCapture ≤ x.number := by
  unfold crossingsOf at h
  split at h
  · cases h
  · obtain ⟨n, range, rfl⟩ := List.mem_map.mp h
    exact (List.mem_range'_1.mp range).1

/-- The parts of the second of two samples, with the crossings they make. -/
theorem take_parts_second {q : SampleRun} (axisA : r.axis = a) (axisB : q.axis = b) (other : b ≠ a) (late : List AxisId)
    (n : Nat) (crossings : List Crossing) :
    ∃ crossings', (List.replicate n (Between.go b late)).foldl (Weaving.take ph) ⟨u, [r, q], crossings⟩
        = ⟨(parts n (u, q)).1, [r, (parts n (u, q)).2], crossings'⟩ := by
  induction n generalizing u q crossings with
  | zero => exact ⟨crossings, rfl⟩
  | succ n ih =>
    rw [List.replicate_succ, List.foldl_cons, take_go_second axisA axisB other]
    exact ih ((advance_axis_of u q).1.trans axisB) _

/-! ### What the crossings show -/

/-- Crossings rewrite the axis parts of snapshots and nothing else. -/
theorem showCrossings_touches (runs : List SampleRun) (crossings : List Crossing) (t : State) :
    ∃ snaps : Vector (Option Snapshot) 16, crossings.foldl (State.showCrossing runs) t = { t with snaps := snaps }
      ∧ ∀ i, (snaps.get i).map (fun y => (y.number, y.time, y.cause, y.readers))
          = (t.snaps.get i).map (fun y => (y.number, y.time, y.cause, y.readers)) := by
  induction crossings generalizing t with
  | nil => exact ⟨t.snaps, rfl, fun _ => rfl⟩
  | cons x rest ih =>
    obtain ⟨snaps, shown, kept⟩ := ih (t.showCrossing runs x)
    refine ⟨snaps, shown, fun i => (kept i).trans ?_⟩
    unfold State.showCrossing
    dsimp only
    rw [map_get, Option.map_map]
    congr 1
    funext y
    simp only [Function.comp]
    split <;> rfl

theorem showCrossings_axis (runs : List SampleRun) (crossings : List Crossing) (t : State) (a : AxisId) :
    (crossings.foldl (State.showCrossing runs) t).axis a = t.axis a := by
  obtain ⟨snaps, shown, -⟩ := showCrossings_touches runs crossings t
  rw [shown]
  rfl

/-- Crossings of other numbers leave a snapshot as it was. -/
theorem showCrossings_other {runs : List SampleRun} {crossings : List Crossing} {n : Nat}
    (others : ∀ x ∈ crossings, x.number ≠ n) {t : State} {i : Fin 16} {y : Snapshot} (number : y.number = n)
    (held : (crossings.foldl (State.showCrossing runs) t).snaps.get i = some y) : t.snaps.get i = some y := by
  induction crossings generalizing t with
  | nil => exact held
  | cons x rest ih =>
    obtain ⟨other, others⟩ := List.forall_mem_cons.mp others
    have before := ih others held
    unfold State.showCrossing at before
    dsimp only at before
    rw [map_get, Option.map_eq_some_iff] at before
    obtain ⟨z, was, shown⟩ := before
    split at shown
    next same =>
      rw [← shown] at number
      exact absurd (same.symm.trans number) other
    next => rw [was, shown]

/-- The parts that the one crossing of a number shows (R126). -/
theorem showCrossings_part {runs : List SampleRun} {before after : List Crossing} {x : Crossing} {t : State}
    (others : ∀ z ∈ after, z.number ≠ x.number) {i : Fin 16} {y : Snapshot} (number : y.number = x.number)
    (held : ((before ++ x :: after).foldl (State.showCrossing runs) t).snaps.get i = some y) {q : SampleRun}
    (found : runs.find? (fun r => decide (r.axis = a) && decide (a ∈ x.axes)) = some q) :
    y.parts.get a = if a ∈ x.late then (t.axis a).part else q.before.part := by
  rw [List.foldl_append, List.foldl_cons] at held
  have last := showCrossings_other others number held
  unfold State.showCrossing at last
  dsimp only at last
  rw [map_get, Option.map_eq_some_iff] at last
  obtain ⟨z, -, shown⟩ := last
  split at shown
  next =>
    rw [← shown, ofFn_get]
    unfold crossedPart
    rw [found]
    change (if a ∈ x.late then ((before.foldl (State.showCrossing runs) t).axis a).part else q.before.part) = _
    rw [showCrossings_axis]
  next other =>
    rw [← shown] at number
    exact absurd number other

/-- Two samples under way end one after the other (R126). -/
theorem finishRuns_two (u : State) (r q : SampleRun) (crossings : List Crossing) :
    finishRuns u crossings [r, q]
      = ((u.finishSample r).finishSample q, crossings ++ crossingsOf u (u.finishSample r) [q.axis] []) := by
  simp [finishRuns, crossingsOf_none]

/-! ### The statement -/

/-- An edge or a SNAP taken after some parts of a sample. -/
theorem sample_capture {rawA rawB rawZ : Level} {x : Between} {late : List AxisId} {k : Nat}
    (begun : s.beginSample a rawA rawB rawZ = (u, some r)) (event : CaptureEvent ph x late (parts k (u, r)).1 v) :
    s.sample a ⟨ph, List.replicate k (.go a []) ++ [x]⟩ rawA rawB rawZ
      = if v.nextCapture = (parts k (u, r)).1.nextCapture then v.finishSample (parts k (u, r)).2
        else State.showCrossing [(parts k (u, r)).2] (v.finishSample (parts k (u, r)).2)
          ⟨(parts k (u, r)).1.nextCapture, [a], late⟩ := by
  obtain ⟨axis, -⟩ := beginSample_run begun
  have axis' := (parts_run k (u, r)).1.trans axis
  rw [sample_of_begun begun, List.foldl_append, take_parts ph k axis, List.foldl_cons, List.foldl_nil, event.take]
  unfold Weaving.close
  simp only [finishRuns, crossingsOf_none, List.map_cons, List.map_nil, List.nil_append, List.append_nil, axis']
  obtain same | one := event.number
  · rw [crossingsOf_same same, if_pos same]
    rfl
  · rw [crossingsOf_one (List.cons_ne_nil _ _) one, if_neg (by omega)]
    rfl

/-- A second sample begun after some parts of the first, and its own parts. -/
theorem sample_second {rawA rawB rawZ rB1 rB2 rB3 : Level} {k n : Nat} {u' : State} {q : SampleRun} {late : List AxisId}
    (begun : s.beginSample a rawA rawB rawZ = (u, some r)) (other : b ≠ a)
    (due : (parts k (u, r)).1.SampleDue b ph)
    (begun' : (parts k (u, r)).1.beginSample b rB1 rB2 rB3 = (u', some q)) :
    ∃ crossings : List Crossing, ∀ last : List Between,
        s.sample a ⟨ph, List.replicate k (.go a []) ++ .start b rB1 rB2 rB3 :: List.replicate n (.go b late) ++ last⟩
            rawA rawB rawZ
          = (last.foldl (Weaving.take ph) ⟨(parts n (u', q)).1, [(parts k (u, r)).2, (parts n (u', q)).2], crossings⟩).close := by
  obtain ⟨axis, -⟩ := beginSample_run begun
  obtain ⟨axis', -⟩ := beginSample_run begun'
  have axisA := (parts_run k (u, r)).1.trans axis
  have started : Weaving.take ph ⟨(parts k (u, r)).1, [(parts k (u, r)).2], []⟩ (.start b rB1 rB2 rB3)
      = ⟨u', [(parts k (u, r)).2, q], []⟩ := by
    rw [take_start, if_pos, begin_of_begun begun']
    · rfl
    · have apart : ¬ a = b := fun h => other h.symm
      simp [axisA, apart, (takesSample_iff _ _ _).mpr due]
  obtain ⟨crossings, made⟩ := take_parts_second (u := u') (ph := ph) axisA axis' other late n []
  refine ⟨crossings, fun last => ?_⟩
  rw [sample_of_begun begun, List.foldl_append, List.foldl_append, take_parts ph k axis, List.foldl_cons, started, made]

/-- An edge or a SNAP that takes its number while both samples are under way crosses both, and no other crossing has that
number (R126). -/
theorem sample_second_capture {rawA rawB rawZ rB1 rB2 rB3 : Level} {k n : Nat} {u' : State} {q : SampleRun}
    {late sides : List AxisId} {x : Between} (begun : s.beginSample a rawA rawB rawZ = (u, some r)) (other : b ≠ a)
    (due : (parts k (u, r)).1.SampleDue b ph)
    (begun' : (parts k (u, r)).1.beginSample b rB1 rB2 rB3 = (u', some q))
    (event : CaptureEvent ph x sides (parts n (u', q)).1 v) (taken : v.nextCapture ≠ (parts n (u', q)).1.nextCapture) :
    ∃ before after : List Crossing, (∀ z ∈ after, z.number ≠ (parts n (u', q)).1.nextCapture)
      ∧ s.sample a ⟨ph, List.replicate k (.go a []) ++ .start b rB1 rB2 rB3 :: List.replicate n (.go b late) ++ [x]⟩
            rawA rawB rawZ
          = (before ++ ⟨(parts n (u', q)).1.nextCapture, [a, b], sides⟩ :: after).foldl
              (State.showCrossing [(parts k (u, r)).2, (parts n (u', q)).2])
              ((v.finishSample (parts k (u, r)).2).finishSample (parts n (u', q)).2) := by
  obtain ⟨axis, -⟩ := beginSample_run begun
  obtain ⟨axis', -⟩ := beginSample_run begun'
  have axisA := (parts_run k (u, r)).1.trans axis
  have axisB := (parts_run n (u', q)).1.trans axis'
  have one := event.number.resolve_left taken
  obtain ⟨crossings, ends⟩ := sample_second (n := n) (late := late) begun other due begun'
  refine ⟨crossings, crossingsOf v (v.finishSample (parts k (u, r)).2) [b] [], fun z listed => ?_, ?_⟩
  · have := mem_crossingsOf listed
    omega
  · rw [ends [x], List.foldl_cons, List.foldl_nil, event.take, Weaving.close, finishRuns_two]
    simp only [List.map_cons, List.map_nil, axisA, axisB]
    rw [crossingsOf_one (List.cons_ne_nil _ _) one, List.append_assoc, List.singleton_append]

/-- The snapshot of that number shows each of the two axes on a side of its own (R126). -/
theorem showCrossings_both {before after : List Crossing} {n : Nat} {sides : List AxisId} {q : SampleRun} {t : State}
    (axisA : r.axis = a) (axisB : q.axis = b) (other : b ≠ a) (others : ∀ z ∈ after, z.number ≠ n) {i : Fin 16} {y : Snapshot}
    (number : y.number = n)
    (held : ((before ++ ⟨n, [a, b], sides⟩ :: after).foldl (State.showCrossing [r, q]) t).snaps.get i = some y) :
    y.parts.get a = (if a ∈ sides then t.axis a else r.before).part
      ∧ y.parts.get b = (if b ∈ sides then t.axis b else q.before).part := by
  have apart : ¬ a = b := fun h => other h.symm
  rw [apply_ite AxisRec.part, apply_ite AxisRec.part]
  exact ⟨showCrossings_part others number held (by simp [axisA]),
    showCrossings_part others number held (by simp [axisA, axisB, apart])⟩

/-- Settles O10: advancing then finishing is finishing; what is taken between acts on what the parts left; and neither parts nor
captures touch claims, time, quiet windows, waiting commands or draws. -/
theorem sampleIsTakenInParts : Obligations.SampleIsTakenInParts := by
  refine ⟨finishSample_advance, fun s a ph rawA rawB rawZ between goes => ?_,
    fun s a ph rawA rawB rawZ s0 r0 k due begun => ?_, fun s a ph rawA rawB rawZ between => ?_⟩
  · by_cases due : s.SampleDue a ph
    · rw [exec_sample_of_due due, exec_sample_of_due due, sample_goes s a ph rawA rawB rawZ goes]
    · rw [exec_sample_of_not_due due, exec_sample_of_not_due due]
  · intro made before part
    obtain ⟨axis, was⟩ := beginSample_run begun
    have axisA := (parts_run k (s0, r0)).1.trans axis
    have beforeA := (parts_run k (s0, r0)).2.trans was
    have shownPart (r : AxisRec) : r.part = part r := part_eq r
    refine ⟨fun c raw p late x listed v done => ?_, fun b rB1 rB2 rB3 u0 q0 n late other dueB begunB => ?_⟩
    · intro t shown
      rw [exec_sample_of_due due]
      refine congrArg Host.Outcome.next ((sample_capture begun (captureEvent_of_mem listed done)).trans ?_)
      refine if_congr Iff.rfl rfl ?_
      rw [showCrossing_alone axisA, beforeA]
      simp only [shownPart, ← apply_ite part]
      rfl
    · intro last t
      obtain ⟨axis', was'⟩ := beginSample_run begunB
      have axisB := (parts_run n (u0, q0)).1.trans axis'
      have beforeB := (parts_run n (u0, q0)).2.trans was'
      rw [exec_sample_of_due due]
      refine ⟨?_, fun c raw p sides x listed v done taken => ?_⟩
      · obtain ⟨crossings, ends⟩ := sample_second (n := n) (late := late) begun other dueB begunB
        have finished := ends []
        rw [List.append_nil, List.foldl_nil, Weaving.close, finishRuns_two] at finished
        obtain ⟨snaps, shown, kept⟩ := showCrossings_touches [(parts k (s0, r0)).2, (parts n (u0, q0)).2] _ t
        exact ⟨snaps, congrArg Host.Outcome.next (finished.trans shown), kept⟩
      · intro t
        obtain ⟨earlier, later, others, finished⟩ := sample_second_capture (late := late) begun other dueB begunB
          (captureEvent_of_mem listed done) taken
        obtain ⟨snaps, shown, -⟩ := showCrossings_touches [(parts k (s0, r0)).2, (parts n (u0, q0)).2] _ t
        rw [exec_sample_of_due due]
        refine ⟨snaps, congrArg Host.Outcome.next (finished.trans shown), fun i y held number => ?_⟩
        have table := congrArg (fun w : State => w.snaps.get i) shown
        have both := showCrossings_both axisA axisB other others number (table.trans held)
        rwa [beforeA, beforeB, shownPart, shownPart] at both
  · by_cases due : s.SampleDue a ph
    · obtain ⟨_, _, _, _, _, _, _, _, _, _, touches⟩ := sample_weaveTouches s a ⟨ph, between⟩ rawA rawB rawZ
      refine ⟨_, exec_sample_of_due due between rawA rawB rawZ, ?_⟩
      rw [touches]
      exact ⟨rfl, rfl, rfl, rfl, rfl⟩
    · exact ⟨s, exec_sample_of_not_due due between rawA rawB rawZ, rfl, rfl, rfl, rfl, rfl⟩

end Sys2Proof.Machine
end

section
/-! PROOFS. The axis commands: their checks in order, and what an accepted one leaves. -/

namespace Sys2Proof.Machine

variable {α : Type} {s : State} {p : PortId} {c : Cmd} {cmd tag : Byte} {args : List Byte} {a : AxisId}

/-! ### The checks of Table 2.2, for any axis command (R26) -/

theorem needState_of_unmet {cond : State → Bool} (h : cond s = false) (act : State → State × Reply) :
    needState cond act s = (s, .refused .wrongState) := if_neg (Bool.eq_false_iff.mp h)

theorem needValues_of_unmet {cond : State → Bool} (h : cond s = false) (act : State → State × Reply) :
    needValues cond act s = (s, .refused .badArgument) := if_neg (Bool.eq_false_iff.mp h)

/-- Step 2: without the claim on the axis the command is NOT_HOLDER. -/
theorem takeRequest_not_holder {parse : List Byte → Option α} {axis : α → AxisId} {act : α → State → State × Reply} {x : α}
    (asked : s.asks p cmd tag args) (command : Cmd.ofCode cmd = some c) (parsed : parse args = some x)
    (stranger : (s.claim (.axis (axis x))).holder ≠ some p) :
    s.takeRequest p c (withArgs parse (fun s x => needAxis p (axis x) (act x) s)) = s.answered p tag [0x04#8] := by
  refine takeRequest_answered asked command ?_
  rw [withArgs_of_parse parsed, needAxis_of_not_holder (s := s.popRequest p) stranger]
  rfl

/-- Step 3: in the wrong state the command is WRONG_STATE. -/
theorem takeRequest_wrong_state {parse : List Byte → Option α} {axis : α → AxisId} {cond : α → State → Bool}
    {act : α → State → State × Reply} {x : α} (asked : s.asks p cmd tag args) (command : Cmd.ofCode cmd = some c)
    (parsed : parse args = some x) (holder : (s.claim (.axis (axis x))).holder = some p)
    (wrong : cond x (s.popRequest p) = false) :
    s.takeRequest p c (withArgs parse (fun s x => needAxis p (axis x) (needState (cond x) (act x)) s))
      = s.answered p tag [0x06#8] := by
  refine takeRequest_answered asked command ?_
  rw [withArgs_of_parse parsed, needAxis_of_holder (s := s.popRequest p) holder, needState_of_unmet wrong]
  rfl

/-- Step 4: with a value out of range the command is BAD_ARGUMENT. -/
theorem takeRequest_bad_value {parse : List Byte → Option α} {axis : α → AxisId} {cond fits : α → State → Bool}
    {act : α → State → State × Reply} {x : α} (asked : s.asks p cmd tag args) (command : Cmd.ofCode cmd = some c)
    (parsed : parse args = some x) (holder : (s.claim (.axis (axis x))).holder = some p)
    (met : cond x (s.popRequest p) = true) (unfit : fits x (s.popRequest p) = false) :
    s.takeRequest p c
        (withArgs parse (fun s x => needAxis p (axis x) (needState (cond x) (needValues (fits x) (act x))) s))
      = s.answered p tag [0x03#8] := by
  refine takeRequest_answered asked command ?_
  rw [withArgs_of_parse parsed, needAxis_of_holder (s := s.popRequest p) holder, needState_of_met met,
    needValues_of_unmet unfit]
  rfl

/-- START_AXIS, STOP_AXIS, CLEAR_FAULTS and DROP_REFERENCE all read one axis byte and then need its claim. -/
theorem exec_axis_command (s : State) (p : PortId) :
    ∀ x ∈ [(Instr.startAxis p, 0x11#8), (Instr.stopAxis p, 0x12#8), (Instr.clearFaults p, 0x14#8), (Instr.dropReference p, 0x1A#8)],
      ∃ (c : Cmd) (act : AxisId → State → State × Reply), Cmd.ofCode x.2 = some c
        ∧ exec x.1 s = .next (s.takeRequest p c (withArgs parseAxis (fun s a => needAxis p a (act a) s))) := by
  intro x listed
  simp only [List.mem_cons, List.not_mem_nil, or_false] at listed
  obtain rfl | rfl | rfl | rfl := listed
  · exact ⟨.startAxis, _, rfl, rfl⟩
  · exact ⟨.stopAxis, _, rfl, rfl⟩
  · exact ⟨.clearFaults, _, rfl, rfl⟩
  · exact ⟨.dropReference, _, rfl, rfl⟩

theorem isCounting_eq_false {s : State} {a : AxisId} : s.isCounting a = false ↔ ¬ (s.axis a).run = .counting :=
  decide_eq_false_iff_not

/-- Settles O12: each command's refusals are those of its checks. -/
theorem axisCommandsAreCheckedInOrder : Obligations.AxisCommandsAreCheckedInOrder := by
  intro s p tag args holds counts refused
  have runs {a : AxisId} (counting : counts a) : (s.popRequest p).isCounting a = true := (isCounting_iff s a).mpr counting
  have rests {a : AxisId} (idle : ¬ counts a) : (s.popRequest p).isCounting a = false := isCounting_eq_false.mpr idle
  refine ⟨fun x listed asked => ?_, fun asked form => ?_, fun a single holder => ?_, fun half asked => ⟨fun form => ?_, ?_⟩,
    fun asked => ⟨fun form => ?_, ?_⟩, fun asked => ⟨fun form => ?_, ?_⟩⟩
  · obtain ⟨c, act, command, takes⟩ := exec_axis_command s p x listed
    refine ⟨fun form => ?_, fun a single stranger => ?_⟩
    · exact takes.trans (congrArg _ (takeRequest_bad_form asked command (parseAxis_eq_none.mpr form)))
    · exact takes.trans (congrArg _ (takeRequest_not_holder (axis := fun a => a) asked command (parseAxis_eq_some.mpr single)
        stranger))
  · exact congrArg _ (takeRequest_bad_form asked rfl (parseAxis_eq_none.mpr form))
  · have parsed := parseAxis_eq_some.mpr single
    refine ⟨fun asked wrong => ?_, fun asked idle => ?_, fun asked idle => ?_⟩
    · refine congrArg _ (takeRequest_wrong_state (axis := fun a => a) asked rfl parsed holder ?_)
      obtain counting | off := wrong
      · simp [runs counting]
      · simp [off]
    · exact congrArg _ (takeRequest_wrong_state (axis := fun a => a) asked rfl parsed holder (rests idle))
    · exact congrArg _ (takeRequest_wrong_state (axis := fun a => a) asked rfl parsed holder (rests idle))
  · exact congrArg _ (takeRequest_bad_form asked rfl form)
  · refine fun a c parsed => ⟨fun stranger => ?_, fun holder counting => ?_, fun holder idle unfit => ?_⟩
    · exact congrArg _ (takeRequest_not_holder (axis := Prod.fst) asked rfl parsed stranger)
    · exact congrArg _ (takeRequest_wrong_state (axis := Prod.fst) asked rfl parsed holder (by simp [runs counting]))
    · exact congrArg _ (takeRequest_bad_value (axis := Prod.fst) asked rfl parsed holder (by simp [rests idle])
        ((configAccepted_eq c).trans unfit))
  · exact congrArg _ (takeRequest_bad_form asked rfl form)
  · refine fun a o n parsed => ⟨fun stranger => ?_, fun holder wrong => ?_, fun holder counting mode unfit => ?_⟩
    · exact congrArg _ (takeRequest_not_holder (axis := Prod.fst) asked rfl parsed stranger)
    · refine congrArg _ (takeRequest_wrong_state (axis := Prod.fst) asked rfl parsed holder ?_)
      obtain idle | mode := wrong
      · simp [rests idle]
      · simp [mode]
    · exact congrArg _ (takeRequest_bad_value (axis := Prod.fst) asked rfl parsed holder (by simp [runs counting, mode])
        (decide_eq_false (Nat.not_lt.mpr unfit)))
  · exact congrArg _ (takeRequest_bad_form asked rfl form)
  · refine fun a q parsed => ⟨fun stranger => ?_, fun holder idle => ?_, fun holder counting unfit => ?_⟩
    · exact congrArg _ (takeRequest_not_holder (axis := Prod.fst) asked rfl parsed stranger)
    · exact congrArg _ (takeRequest_wrong_state (axis := Prod.fst) asked rfl parsed holder (rests idle))
    · exact congrArg _ (takeRequest_bad_value (axis := Prod.fst) asked rfl parsed holder (runs counting)
        (decide_eq_false (Nat.not_lt.mpr unfit)))

/-! ### A change of the reference (R45, R46) -/

theorem handOver_eq (s : State) (a : AxisId) (old new : RefState) : s.handOver a old new
    = if old ≠ .referenced ∧ new = .referenced then s.entriesMarked a .armed
      else if old = .referenced ∧ new ≠ .referenced then s.entriesMarked a .held else s := by
  unfold State.handOver State.armEntries State.holdEntries
  rw [setEntryStates_eq, setEntryStates_eq]

theorem changeReference_eq (s : State) (a : AxisId) (st : RefState) (ep : BitVec 16) : s.changeReference a st ep
    = if (s.axis a).refState = st ∧ (s.axis a).epoch = ep then (s.putReference a st ep).handOver a (s.axis a).refState st
      else ((s.putReference a st ep).handOver a (s.axis a).refState st).toldSubscribers a.1 (.referenceChanged a st ep) := by
  unfold State.changeReference
  rw [raiseSubscribed_eq]
  rfl

/-- Settles O15: by which of state and epoch change. -/
theorem referenceChangeArmsHoldsAndTells : Obligations.ReferenceChangeArmsHoldsAndTells := by
  intro s a st ep r set handed
  have hands : (s.putReference a st ep).handOver a (s.axis a).refState st = handed := handOver_eq _ _ _ _
  rw [changeReference_eq, hands]
  by_cases state : r.refState = st
  · by_cases epoch : r.epoch = ep
    · rw [if_pos ⟨state, epoch⟩, if_neg (not_or.mpr ⟨not_not.mpr state, not_not.mpr epoch⟩)]
    · rw [if_neg (fun h => epoch h.2), if_pos (.inr epoch)]
  · rw [if_neg (fun h => state h.1), if_pos (.inl state)]

/-! ### START_AXIS and STOP_AXIS (R31, R32) -/

theorem startAxis_eq (s : State) (a : AxisId) : s.startAxis a = if (s.axis a).motion = .stopped then s.modAxis a AxisRec.start
    else (s.modAxis a AxisRec.start).toldSubscribers (8 + a.1) (.motionChanged a .stopped) := by
  unfold State.startAxis
  rw [raiseSubscribed_eq]
  rfl

theorem popRequest_startAxis (s : State) (p : PortId) (a : AxisId) :
    (s.popRequest p).startAxis a = (s.startAxis a).popRequest p := by
  rw [startAxis_eq, startAxis_eq, popRequest_axis, popRequest_modAxis, popRequest_toldSubscribers]
  split <;> rfl

theorem popRequest_stopAxis (s : State) (p : PortId) (a : AxisId) :
    (s.popRequest p).stopAxis a = (s.stopAxis a).popRequest p := by
  unfold State.stopAxis
  rw [popRequest_modAxis, popRequest_changeReference, popRequest_axis]

/-- Table 2.4 as the statement writes it. -/
theorem afterStop_eq (st : RefState) : afterStop st
    = if st = .referenced ∨ st = .suspect then .lost else if st = .seeking then .unreferenced else st := by
  cases st <;> rfl

/-- Settles O14: the effect of each command commutes with the taking of its request and is the record written out. -/
theorem startAndStopOfAnAxis : Obligations.StartAndStopOfAnAxis := by
  refine ⟨fun s p tag a asked holder idle mode => ?_, fun s p tag a asked holder counting => ?_⟩
  · intro started told
    refine congrArg Host.Outcome.next (takeRequest_answered asked rfl ?_)
    rw [startAxisReply, withArgs_of_parse (parseAxis_byte a), needAxis_of_holder (s := s.popRequest p) holder,
      needState_of_met (by simp [State.isCounting, idle, mode]), acceptAxis_eq, popRequest_startAxis, popRequest_used,
      startAxis_eq]
    rfl
  · intro r after stopped
    have effect : s.stopAxis a = stopped := by
      unfold State.stopAxis
      rw [afterStop_eq]
    refine congrArg Host.Outcome.next (takeRequest_answered asked rfl ?_)
    rw [stopAxisReply, withArgs_of_parse (parseAxis_byte a), needAxis_of_holder (s := s.popRequest p) holder,
      needState_of_met ((isCounting_iff _ a).mpr counting), acceptAxis_eq, popRequest_stopAxis, popRequest_used, effect]
    rfl

/-! ### Cancelling the entries of an axis (R98) -/

/-- ENTRIES_CANCELLED to each port with the number it lost, where that is not 0 (R98, R100). -/
def State.toldCancelled (s : State) (a : AxisId) (lost : PortId → Nat) : State :=
  { s with ports := Vector.ofFn (fun q =>
      if lost q = 0 then s.port q else (s.port q).accept (.entriesCancelled a (lost q))) }

theorem raiseCancelled_eq (s : State) (p : PortId) (a : AxisId) (n : Nat) :
    s.raiseCancelled p a n = s.modPort p (fun r => if n = 0 then r else r.accept (.entriesCancelled a n)) := by
  unfold State.raiseCancelled
  split
  · simp [State.modPort, State.port]
  · rfl

/-- The queues of different ports are different state (R161). -/
theorem foldl_raiseCancelled (s : State) (a : AxisId) (lost : PortId → Nat) :
    (List.finRange 3).foldl (fun u p => u.raiseCancelled p a (lost p)) s = s.toldCancelled a lost := by
  have three : List.finRange 3 = [0, 1, 2] := by decide
  rw [three]
  simp only [List.foldl_cons, List.foldl_nil, raiseCancelled_eq]
  unfold State.toldCancelled State.modPort
  refine ports_ext fun q => ?_
  have ports : q = 0 ∨ q = 1 ∨ q = 2 := by
    revert q
    decide
  rcases ports with rfl | rfl | rfl
  all_goals simp [State.port, upd_get]

/-- The number a port loses is the number of its entries on the axis. -/
theorem countOf_slotsWhere (s : State) (q : PortId) (a : AxisId) :
    s.countOf q (s.slotsWhere (fun e => decide (e.axis = a))) = s.ownedWhere q (fun e => decide (e.axis = a)) := by
  rw [ownedWhere_eq_length, State.countOf, State.slotsWhere, State.slotsWhere, List.filter_filter]
  congr 2
  funext i
  cases (s.slot i).entry <;> rfl

theorem cancelAxisEntries_eq (s : State) (a : AxisId) : s.cancelAxisEntries a
    = (s.withoutEntries (fun e => decide (e.axis = a))).toldCancelled a (fun q => s.ownedWhere q (fun e => decide (e.axis = a))) := by
  unfold State.cancelAxisEntries
  dsimp only
  rw [freeEntries_slotsWhere, ← foldl_raiseCancelled]
  simp only [countOf_slotsWhere]

/-! ### SET_AXIS_CONFIG (R28, R29) -/

/-- Arming or holding the entries of an axis changes no port's number of them. -/
theorem ownedWhere_marked (s : State) (a : AxisId) (st : EntryState) (q : PortId) :
    (s.entriesMarked a st).ownedWhere q (fun e => decide (e.axis = a)) = s.ownedWhere q (fun e => decide (e.axis = a)) := by
  unfold State.ownedWhere
  congr 1
  funext i
  rw [entriesMarked_slot]
  unfold PoolSlot.setState
  cases entry : (s.slot i).entry with
  | none => simp only [entry]
  | some e => by_cases axis : e.axis = a <;> simp [entry, axis]

/-- What a freeing of entries leaves is said by its slots and its counts. -/
theorem eq_withoutEntries {s u : State} {cond : Entry → Bool} (rest : u = { s with pool := u.pool, booked := u.booked })
    (slots : ∀ i, u.slot i = (s.withoutEntries cond).slot i) (counts : ∀ q, u.booked.get q = s.booked.get q - s.ownedWhere q cond) :
    u = s.withoutEntries cond := by
  have pool : u.pool = (s.withoutEntries cond).pool := table_ext slots
  have booked : u.booked = (s.withoutEntries cond).booked := table_ext fun q => by rw [counts, withoutEntries_booked]
  rw [rest, pool, booked]
  rfl

/-- Arming or holding entries that are then freed makes no difference. -/
theorem withoutEntries_marked (s : State) (a : AxisId) (st : EntryState) :
    (s.entriesMarked a st).withoutEntries (fun e => decide (e.axis = a)) = s.withoutEntries (fun e => decide (e.axis = a)) := by
  refine eq_withoutEntries rfl (fun i => ?_) fun q => ?_
  · rw [withoutEntries_slot, withoutEntries_slot, entriesMarked_slot]
    unfold PoolSlot.setState
    cases entry : (s.slot i).entry with
    | none => simp only [entry]
    | some e => by_cases axis : e.axis = a <;> simp [entry, axis]
  · rw [withoutEntries_booked, ownedWhere_marked, entriesMarked_booked]

/-- The hand-over to entries that are then cancelled makes no difference. -/
theorem cancelAxisEntries_handOver (s : State) (a : AxisId) (old new : RefState) :
    (s.handOver a old new).cancelAxisEntries a = s.cancelAxisEntries a := by
  have marked (st : EntryState) : (s.entriesMarked a st).cancelAxisEntries a = s.cancelAxisEntries a := by
    rw [cancelAxisEntries_eq, cancelAxisEntries_eq, withoutEntries_marked]
    simp only [ownedWhere_marked]
  rw [handOver_eq]
  split
  · exact marked .armed
  · split
    · exact marked .held
    · rfl

/-- The run count that R4 clears where the filter settings change. -/
theorem restart_eq (old c : AxisConfig) (f : FilterRec) : (if refilters old c then f.restart else f)
    = if old.divider = c.divider ∧ old.depth = c.depth ∧ old.window = c.window then f else ⟨f.accepted, 0⟩ := by
  have kept : refilters old c = false ↔ old.divider = c.divider ∧ old.depth = c.depth ∧ old.window = c.window := by
    simp [refilters, and_assoc]
  by_cases same : old.divider = c.divider ∧ old.depth = c.depth ∧ old.window = c.window
  · rw [if_pos same, kept.mpr same]
    rfl
  · rw [if_neg same, if_pos (Bool.eq_true_of_not_eq_false (mt kept.mp same))]
    rfl

theorem recounts_eq_false {old c : AxisConfig} : recounts old c = false ↔ old.mode = c.mode ∧ old.cpr = c.cpr := by
  simp [recounts]

theorem toldCancelled_port (s : State) (a : AxisId) (lost : PortId → Nat) (q : PortId) : (s.toldCancelled a lost).port q
    = if lost q = 0 then s.port q else (s.port q).accept (.entriesCancelled a (lost q)) := ofFn_get _ q

theorem popRequest_toldCancelled (s : State) (p : PortId) (a : AxisId) (lost : PortId → Nat) :
    (s.popRequest p).toldCancelled a lost = (s.toldCancelled a lost).popRequest p := by
  unfold State.toldCancelled
  refine ports_ext fun q => ?_
  change ((s.popRequest p).toldCancelled a lost).port q = ((s.toldCancelled a lost).popRequest p).port q
  rw [toldCancelled_port, popRequest_port, popRequest_port, toldCancelled_port, toldCancelled_port]
  by_cases same : q = p
  · subst same
    rw [if_pos rfl, if_pos rfl]
    split <;> rfl
  · rw [if_neg same, if_neg same]

theorem popRequest_cancelAxisEntries (s : State) (p : PortId) (a : AxisId) :
    (s.popRequest p).cancelAxisEntries a = (s.cancelAxisEntries a).popRequest p := by
  rw [cancelAxisEntries_eq, cancelAxisEntries_eq, ← popRequest_toldCancelled]
  rfl

theorem popRequest_configure (s : State) (p : PortId) (a : AxisId) (half : ClkPhase) (c : AxisConfig) :
    (s.popRequest p).configure a half c = (s.configure a half c).popRequest p := by
  unfold State.configure
  rw [popRequest_axis, popRequest_modAxis, popRequest_modAxis, popRequest_changeReference, popRequest_cancelAxisEntries]
  split <;> rfl

/-- SET_AXIS_CONFIG that passes the checks (R26 to R28). -/
theorem setAxisConfigReply_of_accepted {half : ClkPhase} {c : AxisConfig} (parsed : parseConfig args = some (a, c))
    (holder : (s.claim (.axis a)).holder = some p) (idle : (s.axis a).run = .disabled) (fits : c.wellFormed = true) :
    setAxisConfigReply p half s args = ((s.configure a half c).used (.axis a), .ok []) := by
  rw [setAxisConfigReply, withArgs_of_parse parsed, needAxis_of_holder holder,
    needState_of_met (by simp [State.isCounting, idle]), needValues_of_met ((configAccepted_eq c).trans fits), acceptAxis_eq]

/-- With mode and CPR unchanged the record alone is replaced (R28). -/
theorem configure_of_kept {half : ClkPhase} {c : AxisConfig} (same : recounts (s.axis a).cfg c = false) :
    s.configure a half c = s.modAxis a (fun r => r.configure half c) := if_neg (Bool.eq_false_iff.mp same)

/-- An axis that loses its place: the change of the reference is told, then the entries go (R28, R98). -/
theorem configure_of_recounted {half : ClkPhase} {c : AxisConfig} (changed : recounts (s.axis a).cfg c = true) :
    s.configure a half c
      = (if (s.axis a).refState = .unreferenced
          then s.modAxis a (fun r => { (r.configure half c).unplace with refState := .unreferenced })
          else (s.modAxis a (fun r => { (r.configure half c).unplace with refState := .unreferenced })).toldSubscribers a.1
            (.referenceChanged a .unreferenced (s.axis a).epoch)).cancelAxisEntries a := by
  have put : (s.modAxis a (fun r => (r.configure half c).unplace)).putReference a .unreferenced (s.axis a).epoch
      = s.modAxis a (fun r => { (r.configure half c).unplace with refState := .unreferenced }) := by
    rw [State.putReference, modAxis_modAxis]
    exact modAxis_congr rfl
  have told (u : State) (old : RefState) (bit : Nat) (n : Notice) :
      (u.handOver a old .unreferenced).toldSubscribers bit n = (u.toldSubscribers bit n).handOver a old .unreferenced :=
    (handOver_comm (g := fun u => u.toldSubscribers bit n) (fun _ _ => rfl) u old .unreferenced).symm
  have state : ((s.modAxis a (fun r => (r.configure half c).unplace)).axis a).refState = (s.axis a).refState := by
    rw [modAxis_axis_same]
    rfl
  have epoch : ((s.modAxis a (fun r => (r.configure half c).unplace)).axis a).epoch = (s.axis a).epoch := by
    rw [modAxis_axis_same]
    rfl
  rw [State.configure, if_pos changed, changeReference_eq, put, state, epoch]
  by_cases unreferenced : (s.axis a).refState = .unreferenced
  · rw [if_pos ⟨unreferenced, rfl⟩, if_pos unreferenced, cancelAxisEntries_handOver]
  · rw [if_neg (fun h => unreferenced h.1), if_neg unreferenced, told, cancelAxisEntries_handOver]

/-- The new record, as the statement writes it (R4, R14, R28). -/
theorem AxisRec.configure_eq (r : AxisRec) (half : ClkPhase) (c : AxisConfig) : r.configure half c = { r with
    cfg := c
    dividers := ⟨r.dividers.first, if half = .first then c.divider else r.dividers.second⟩
    filtA := if r.cfg.divider = c.divider ∧ r.cfg.depth = c.depth ∧ r.cfg.window = c.window then r.filtA else ⟨r.filtA.accepted, 0⟩
    filtB := if r.cfg.divider = c.divider ∧ r.cfg.depth = c.depth ∧ r.cfg.window = c.window then r.filtB else ⟨r.filtB.accepted, 0⟩
    filtZ := if r.cfg.divider = c.divider ∧ r.cfg.depth = c.depth ∧ r.cfg.window = c.window then r.filtZ else ⟨r.filtZ.accepted, 0⟩
    debt := if clearsDebt r.cfg c then 0 else r.debt } := by
  unfold AxisRec.configure
  rw [restart_eq, restart_eq, restart_eq]
  cases half <;> rfl

theorem clearsDebt_of_kept {old c : AxisConfig} (same : recounts old c = false) (x : Nat) :
    (if clearsDebt old c then 0 else x) = if old.policy = c.policy then x else 0 := by
  by_cases policy : old.policy = c.policy <;> simp [clearsDebt, same, policy]

theorem clearsDebt_of_recounted {old c : AxisConfig} (changed : recounts old c = true) : clearsDebt old c = true := by
  simp [clearsDebt, changed]

/-- Settles O13: by whether mode or CPR change; the cancelling of the axis's entries is their removal and one notice to each
owner. -/
theorem setAxisConfigReplacesTheRecord : Obligations.SetAxisConfigReplacesTheRecord := by
  intro s p half tag args a c asked parsed holder idle fits old clear lost dividers kept emptied changed freed cancelled
  refine congrArg Host.Outcome.next (takeRequest_answered asked rfl ?_)
  rw [setAxisConfigReply_of_accepted (s := s.popRequest p) parsed holder idle fits, popRequest_configure, popRequest_used]
  suffices effect : s.configure a half c = if old.mode = c.mode ∧ old.cpr = c.cpr then kept else cancelled by
    rw [effect]
    rfl
  by_cases same : old.mode = c.mode ∧ old.cpr = c.cpr
  · have unchanged := recounts_eq_false.mpr same
    rw [if_pos same, configure_of_kept unchanged]
    refine modAxis_congr ?_
    rw [AxisRec.configure_eq, clearsDebt_of_kept unchanged]
  · have recounted := Bool.eq_true_of_not_eq_false (mt recounts_eq_false.mp same)
    have empty : s.modAxis a (fun r => { (r.configure half c).unplace with refState := .unreferenced }) = emptied := by
      refine modAxis_congr ?_
      rw [AxisRec.configure_eq, clearsDebt_of_recounted recounted]
      rfl
    have owned (q : PortId) : changed.ownedWhere q (fun e => decide (e.axis = a)) = lost q := by
      simp only [changed]
      split <;> rfl
    rw [if_neg same, configure_of_recounted recounted, empty]
    refine (cancelAxisEntries_eq changed a).trans ?_
    rw [funext owned]
    rfl

end Sys2Proof.Machine
end

section
/-! PROOFS. Claims, leases, lines and timers. -/

namespace Sys2Proof.Machine

variable {s : State} {p : PortId} {tag : Byte} {args : List Byte}

/-! ### STALL_EXPIRY and PULSE_END (R38, R111) -/

/-- Settles O18: by whether the timer is due. -/
theorem stallsAndPulsesEndAtTheirTick : Obligations.StallsAndPulsesEndAtTheirTick := by
  refine ⟨fun s a => ⟨fun due => ?_, fun early => ?_⟩, fun s l => ⟨fun due => ?_, fun early => ?_⟩⟩
  · refine congrArg Host.Outcome.next ((if_pos (decide_eq_true due)).trans ?_)
    rw [State.takeStall, raiseSubscribed_eq]
    rfl
  · exact congrArg Host.Outcome.next (if_neg (mt of_decide_eq_true early))
  · exact congrArg Host.Outcome.next (if_pos (decide_eq_true due))
  · exact congrArg Host.Outcome.next (if_neg (mt of_decide_eq_true early))

/-! ### Freeing a subject (R71) -/

theorem popRequest_freeSubject (s : State) (p : PortId) (subj : Subject) :
    (s.popRequest p).freeSubject subj = (s.freeSubject subj).popRequest p := by
  cases subj with
  | axis a => rfl
  | line l =>
    cases holder : (s.claim (.line l)).holder with
    | none =>
      rw [freeSubject_free_line s l holder, freeSubject_free_line (s.popRequest p) l holder]
      rfl
    | some q =>
      rw [freeSubject_line s l q holder, freeSubject_line (s.popRequest p) l q holder]
      rfl

/-- The entries that go with a line are the holder's that name it (R71, R99). -/
theorem cancelledBy_line {l : LineId} {q : PortId} (holder : (s.claim (.line l)).holder = some q) :
    s.cancelledBy (.line l) = s.slotsWhere (fun e => decide (e.owner = q) && decide (e.action.line? = some l)) := by
  simp [State.cancelledBy, State.lineEntries, holder]

theorem cancelledBy_line_length {l : LineId} {q : PortId} (holder : (s.claim (.line l)).holder = some q) :
    (s.cancelledBy (.line l)).length
      = s.ownedWhere q (fun e => decide (e.owner = q) && decide (e.action.line? = some l)) := by
  rw [cancelledBy_line holder, ownedWhere_eq_length]
  simp only [← Bool.and_assoc, Bool.and_self]

/-! ### RELEASE (R70) -/

theorem releaseReply_of_holder {subj : Subject} (parsed : parseSubject args = some subj)
    (holder : (s.claim subj).holder = some p) :
    releaseReply p s args = (s.freeSubject subj, .ok [byte (s.cancelledBy subj).length]) := by
  rw [releaseReply, withArgs_of_parse parsed, if_pos ((holdsClaim_iff s p subj).mpr holder)]

theorem releaseReply_of_stranger {subj : Subject} (parsed : parseSubject args = some subj)
    (stranger : (s.claim subj).holder ≠ some p) : releaseReply p s args = (s, .refused .notHolder) := by
  rw [releaseReply, withArgs_of_parse parsed, if_neg (mt (holdsClaim_iff s p subj).mp stranger)]

/-- Settles O23: the freeing of a subject commutes with the taking of the request. -/
theorem releaseFreesTheSubject : Obligations.ReleaseFreesTheSubject := by
  intro s p tag args asked
  refine ⟨fun form => congrArg _ (takeRequest_bad_form asked rfl form), fun subj parsed stranger => ?_,
    fun a parsed holder => ?_, fun l parsed holder => ?_⟩
  · refine congrArg Host.Outcome.next (takeRequest_answered asked rfl ?_)
    rw [releaseReply_of_stranger (s := s.popRequest p) parsed stranger]
    rfl
  · refine congrArg Host.Outcome.next (takeRequest_answered asked rfl ?_)
    rw [releaseReply_of_holder (s := s.popRequest p) parsed holder, popRequest_freeSubject]
    rfl
  · intro named
    refine congrArg Host.Outcome.next (takeRequest_answered asked rfl ?_)
    rw [releaseReply_of_holder (s := s.popRequest p) parsed holder, popRequest_freeSubject,
      cancelledBy_line_length (s := s.popRequest p) holder, freeSubject_line s l p holder]
    rfl

/-! ### LEASE_EXPIRY (R73) -/

theorem leaseEvent_of_due {subj : Subject} {q : PortId} (due : (s.claim subj).expiry = some s.time)
    (holder : (s.claim subj).holder = some q) :
    s.leaseEvent subj = ((s.freeSubject subj).raise q (.claimLost subj)).raiseAllCancelled s q (s.cancelledBy subj) := by
  have taken : s.leaseEvent subj = s.takeLease subj := if_pos (decide_eq_true due)
  rw [taken, State.takeLease, holder]

/-- The notices of the cancelled entries all go to one port, in axis order (R73 step 3). -/
theorem raiseAllCancelled_eq (s before : State) (q : PortId) (slots : List SlotId) :
    s.raiseAllCancelled before q slots = (List.finRange 4).foldl (fun u a => u.modPort q (fun r =>
      if before.countOn a slots = 0 then r else r.accept (.entriesCancelled a (before.countOn a slots)))) s := by
  unfold State.raiseAllCancelled
  simp only [raiseCancelled_eq]

theorem countOn_slotsWhere (s : State) (a : AxisId) (q : PortId) (l : LineId) :
    s.countOn a (s.slotsWhere (fun e => decide (e.owner = q) && decide (e.action.line? = some l)))
      = s.ownedWhere q (fun e => (decide (e.owner = q) && decide (e.action.line? = some l)) && decide (e.axis = a)) := by
  rw [ownedWhere_eq_length, State.countOn, State.slotsWhere, State.slotsWhere, List.filter_filter]
  congr 2
  funext i
  cases (s.slot i).entry with
  | none => rfl
  | some e => by_cases owner : e.owner = q <;> simp [owner, Bool.and_comm]

/-- Settles O24: by the subject: a line loses its entries, told axis by axis, an axis none. -/
theorem leaseExpiryFreesAndTells : Obligations.LeaseExpiryFreesAndTells := by
  intro s subj
  refine ⟨fun early => congrArg _ (if_neg (mt of_decide_eq_true early)), fun q due holder => ?_⟩
  have four : List.finRange 4 = [0, 1, 2, 3] := by decide
  cases subj with
  | axis a =>
    refine congrArg Host.Outcome.next ((leaseEvent_of_due due holder).trans ?_)
    have none (b : AxisId) : s.countOn b (s.cancelledBy (.axis a)) = 0 := rfl
    rw [raiseAllCancelled_eq, four]
    simp only [none, List.foldl_cons, List.foldl_nil, if_true, State.raise, modPort_modPort]
    rfl
  | line l =>
    have count (b : AxisId) : s.countOn b (s.cancelledBy (.line l)) = s.ownedWhere q
        (fun e => (decide (e.owner = q) && decide (e.action.line? = some l)) && decide (e.axis = b)) := by
      rw [cancelledBy_line holder, countOn_slotsWhere]
    refine congrArg Host.Outcome.next ((leaseEvent_of_due due holder).trans ?_)
    rw [raiseAllCancelled_eq, four, freeSubject_line s l q holder]
    simp only [count, List.foldl_cons, List.foldl_nil, State.raise, modPort_modPort]
    rfl

/-! ### CLAIM (R66 to R69) -/

theorem claimReply_of_values {subj : Subject} {lease : Nat} {idle : Level} (parsed : parseClaim args = some (subj, lease, idle))
    (fits : leaseWellFormed lease = true) : claimReply p s args = claimEffect p s subj lease idle := by
  rw [claimReply, withArgs_of_parse parsed, needValues_of_met ((leaseAccepted_eq lease).trans fits)]

theorem claimEffect_of_free {subj : Subject} (free : (s.claim subj).holder = none) (lease : Nat) (idle : Level) :
    claimEffect p s subj lease idle = (s.grant p subj lease idle, .ok (claimData s.time lease)) := by
  rw [claimEffect, free]

theorem claimEffect_of_holder {subj : Subject} (holder : (s.claim subj).holder = some p) (lease : Nat) (idle : Level) :
    claimEffect p s subj lease idle = (s.renew p subj lease idle, .ok (claimData s.time lease)) := by
  rw [claimEffect, holder]
  exact if_pos rfl

theorem claimEffect_of_other {subj : Subject} {q : PortId} (holder : (s.claim subj).holder = some q) (other : q ≠ p)
    (lease : Nat) (idle : Level) :
    claimEffect p s subj lease idle = (s, .refused .heldByOther (heldByOtherData s.time q (s.claim subj).expiry)) := by
  rw [claimEffect, holder]
  exact if_neg other

theorem popRequest_grant (s : State) (p q : PortId) (subj : Subject) (lease : Nat) (idle : Level) :
    (s.popRequest p).grant q subj lease idle = (s.grant q subj lease idle).popRequest p := by
  cases subj <;> rfl

theorem popRequest_renew (s : State) (p q : PortId) (subj : Subject) (lease : Nat) (idle : Level) :
    (s.popRequest p).renew q subj lease idle = (s.renew q subj lease idle).popRequest p := by
  cases subj <;> rfl

/-- The data of the response: lease, and expiry time where there is one (R66). -/
theorem claimData_eq (now : Time) (lease : Nat) :
    claimData now lease = beBytes 2 lease ++ optBytes (fun e => beBytes 6 e.toNat) (leaseEnd now lease) := rfl

/-- The level of a line whose claim is renewed (R68). -/
theorem renewIdle_eq (old new : Level) (r : LineRec) : r.renewIdle old new = if r.pulseEnd ≠ none ∨ old = new then r
    else { r with level := if r.level = old then new else new.flip } := by
  unfold LineRec.renewIdle
  refine if_congr ?_ rfl rfl
  rw [or_comm, Option.isSome_iff_ne_none]

/-- Settles O22: by who holds the subject. -/
theorem claimIsGrantedRenewedOrRefused : Obligations.ClaimIsGrantedRenewedOrRefused := by
  refine ⟨fun s p tag args subj lease idle asked parsed fits => ?_, fun s p tag args asked => ⟨fun form => ?_,
    fun subj lease idle parsed => ⟨fun unfit => ?_, fun q fits holder other => ?_⟩⟩⟩
  · intro c stored body
    have data : Reply.ok (claimData (s.popRequest p).time lease) = ⟨body, none⟩ := by
      simp only [body, claimData_eq, popRequest_time]
      cases leaseEnd s.time lease <;> rfl
    refine ⟨fun free => ?_, fun holder => ?_⟩
    · refine congrArg Host.Outcome.next (takeRequest_answered asked rfl ?_)
      rw [claimReply_of_values parsed fits, claimEffect_of_free (s := s.popRequest p) free, popRequest_grant, data]
      cases subj <;> rfl
    · refine congrArg Host.Outcome.next (takeRequest_answered asked rfl ?_)
      rw [claimReply_of_values parsed fits, claimEffect_of_holder (s := s.popRequest p) holder, popRequest_renew, data]
      cases subj with
      | axis a => rfl
      | line l =>
        unfold State.renew
        simp only [renewIdle_eq]
        rfl
  · exact congrArg _ (takeRequest_bad_form asked rfl form)
  · refine congrArg Host.Outcome.next (takeRequest_answered asked rfl ?_)
    rw [claimReply, withArgs_of_parse parsed, needValues_of_unmet ((leaseAccepted_eq lease).trans unfit)]
    rfl
  · refine congrArg Host.Outcome.next (takeRequest_answered asked rfl ?_)
    rw [claimReply_of_values parsed fits, claimEffect_of_other (s := s.popRequest p) holder other]
    cases expiry : (s.claim subj).expiry with
    | none =>
      rw [popRequest_claim, expiry]
      rfl
    | some e =>
      rw [popRequest_claim, expiry]
      rfl

/-! ### DRIVE_LINE (R115) -/

theorem driveAccepted_iff (d : Drive) (w : Nat) : driveAccepted d w = true ↔ if d = .pulse then 1 ≤ w else w = 0 := by
  cases d <;> simp [driveAccepted]

theorem driveLineReply_of_holder {l : LineId} {d : Drive} {w : Nat} (parsed : parseDrive args = some (l, d, w))
    (holder : (s.claim (.line l)).holder = some p) :
    driveLineReply p s args = needValues (fun _ => driveAccepted d w) (driveEffect l d w) s := by
  rw [driveLineReply, withArgs_of_parse parsed, if_pos ((holdsClaim_iff s p _).mpr holder)]

theorem driveLineReply_of_stranger {l : LineId} {d : Drive} {w : Nat} (parsed : parseDrive args = some (l, d, w))
    (stranger : (s.claim (.line l)).holder ≠ some p) : driveLineReply p s args = (s, .refused .notHolder) := by
  rw [driveLineReply, withArgs_of_parse parsed]
  exact if_neg (mt (holdsClaim_iff s p _).mp stranger)

/-- Settles O25: the checks in their order, then Table 6.3 as the line action of the drive. -/
theorem driveLineActsByTable63 : Obligations.DriveLineActsByTable63 := by
  intro s p tag args asked
  refine ⟨fun form => congrArg _ (takeRequest_bad_form asked rfl form), fun l d w parsed => ?_⟩
  intro fits idle driven
  have accepts : driveAccepted d w = true ↔ fits := driveAccepted_iff d w
  refine ⟨fun stranger => ?_, fun holder unfit => ?_, fun holder fit => ?_⟩
  · refine congrArg Host.Outcome.next (takeRequest_answered asked rfl ?_)
    rw [driveLineReply_of_stranger (s := s.popRequest p) parsed stranger]
    rfl
  · refine congrArg Host.Outcome.next (takeRequest_answered asked rfl ?_)
    rw [driveLineReply_of_holder (s := s.popRequest p) parsed holder,
      needValues_of_unmet (Bool.eq_false_iff.mpr (mt accepts.mp unfit))]
    rfl
  · have effect : s.lineAction l s.time (driveAction d w) = driven := by
      unfold State.lineAction
      cases d <;> rfl
    refine congrArg Host.Outcome.next (takeRequest_answered asked rfl ?_)
    rw [driveLineReply_of_holder (s := s.popRequest p) parsed holder, needValues_of_met (accepts.mpr fit), driveEffect,
      renewByUse_eq_used, ← effect]
    rfl

end Sys2Proof.Machine
end

section
/-! PROOFS. PORT_RESET in all its blocks. -/

namespace Sys2Proof.Machine

variable {s t u : State} {p : PortId}

/-! ### Freeing entries twice (R84) -/

theorem countP_add_of_split {α : Type} {f g h : α → Bool} (l : List α)
    (split : ∀ x, (if f x then 1 else 0) + (if g x then 1 else 0) = if h x then 1 else 0) :
    l.countP f + l.countP g = l.countP h := by
  induction l with
  | nil => rfl
  | cons x rest ih =>
    have here := split x
    simp only [List.countP_cons]
    omega

theorem ownedWhere_eq (s : State) (q : PortId) (cond : Entry → Bool) :
    s.ownedWhere q cond = (List.finRange 64).countP (fun i => (s.slot i).entry.any (fun e => decide (e.owner = q) && cond e)) := by
  unfold State.ownedWhere
  congr 1
  funext i
  cases (s.slot i).entry <;> rfl

/-- A slot after two freeings, the first of entries that the second frees too. -/
theorem withoutEntries_slot_twice {first cond : Entry → Bool} (among : ∀ e, first e = true → cond e = true) (i : SlotId) :
    ((s.withoutEntries first).withoutEntries cond).slot i = (s.withoutEntries cond).slot i := by
  rw [withoutEntries_slot, withoutEntries_slot, withoutEntries_slot]
  cases entry : (s.slot i).entry with
  | none => simp only [entry]
  | some e =>
    cases goes : first e with
    | true => simp [among e goes, goes]
    | false => simp [entry, goes]

/-- An entry that goes in a first step is not counted again in the second. -/
theorem ownedWhere_twice {first cond : Entry → Bool} (among : ∀ e, first e = true → cond e = true) (q : PortId) :
    s.ownedWhere q first + (s.withoutEntries first).ownedWhere q cond = s.ownedWhere q cond := by
  simp only [ownedWhere_eq]
  refine countP_add_of_split _ fun i => ?_
  rw [withoutEntries_slot]
  cases entry : (s.slot i).entry with
  | none => simp [entry]
  | some e =>
    cases goes : first e with
    | true => simp [among e goes, goes]
    | false => simp [entry, goes]

theorem withoutEntries_twice {first cond : Entry → Bool} (among : ∀ e, first e = true → cond e = true) :
    (s.withoutEntries first).withoutEntries cond = s.withoutEntries cond := by
  refine eq_withoutEntries rfl (withoutEntries_slot_twice among) fun q => ?_
  rw [withoutEntries_booked, withoutEntries_booked, Nat.sub_sub, ownedWhere_twice among]

/-! ### Freeing all subjects of a port (R78) -/

/-- What a list of subjects freed one after another can touch. -/
theorem freeSubjects_touches (l : List Subject) (s : State) :
    ∃ c ln x y, l.foldl State.freeSubject s = { s with claims := c, lines := ln, pool := x, booked := y } := by
  induction l generalizing s with
  | nil => exact ⟨_, _, _, _, rfl⟩
  | cons subj rest ih =>
    obtain ⟨_, _, _, _, one⟩ := freeSubject_touches s subj
    obtain ⟨_, _, _, _, others⟩ := ih (s.freeSubject subj)
    rw [List.foldl_cons, others, one]
    exact ⟨_, _, _, _, rfl⟩

theorem freeSubjects_claim (l : List Subject) (s : State) (x : Subject) :
    (l.foldl State.freeSubject s).claim x = if x ∈ l then ClaimRec.free else s.claim x := by
  induction l generalizing s with
  | nil => rfl
  | cons subj rest ih =>
    rw [List.foldl_cons, ih, freeSubject_claim]
    by_cases later : x ∈ rest <;> by_cases here : x = subj <;> simp [later, here]

theorem freeSubjects_line (l : List Subject) (s : State) (k : LineId) : (l.foldl State.freeSubject s).line k
    = if .line k ∈ l then { s.line k with level := .low, pulseEnd := none } else s.line k := by
  induction l generalizing s with
  | nil => rfl
  | cons subj rest ih =>
    rw [List.foldl_cons, ih, freeSubject_line_record]
    by_cases later : Subject.line k ∈ rest <;> by_cases here : subj = .line k <;> simp [later, here, eq_comm]

/-- The entries that go with a port's subject are its own: where all of its entries go afterwards they are counted once. -/
theorem freeSubject_withoutEntries {subj : Subject} (mine : (s.claim subj).holder = some p ∨ (s.claim subj).holder = none) :
    ((s.freeSubject subj).withoutEntries (fun e => decide (e.owner = p))).pool
        = (s.withoutEntries (fun e => decide (e.owner = p))).pool
      ∧ ((s.freeSubject subj).withoutEntries (fun e => decide (e.owner = p))).booked
        = (s.withoutEntries (fun e => decide (e.owner = p))).booked := by
  cases subj with
  | axis a => exact ⟨rfl, rfl⟩
  | line l =>
    obtain holder | free := mine
    · rw [freeSubject_line s l p holder, withoutEntries_twice fun e named => (Bool.and_eq_true_iff.mp named).1]
      exact ⟨rfl, rfl⟩
    · rw [freeSubject_free_line s l free]
      exact ⟨rfl, rfl⟩

theorem freeSubjects_withoutEntries (l : List Subject) (s : State)
    (mine : ∀ x ∈ l, (s.claim x).holder = some p ∨ (s.claim x).holder = none) :
    ((l.foldl State.freeSubject s).withoutEntries (fun e => decide (e.owner = p))).pool
        = (s.withoutEntries (fun e => decide (e.owner = p))).pool
      ∧ ((l.foldl State.freeSubject s).withoutEntries (fun e => decide (e.owner = p))).booked
        = (s.withoutEntries (fun e => decide (e.owner = p))).booked := by
  induction l generalizing s with
  | nil => exact ⟨rfl, rfl⟩
  | cons subj rest ih =>
    obtain ⟨here, later⟩ := List.forall_mem_cons.mp mine
    obtain ⟨pool, booked⟩ := freeSubject_withoutEntries here
    obtain ⟨pool', booked'⟩ := ih (s.freeSubject subj) fun x listed => by
      rw [freeSubject_claim]
      split
      · exact .inr rfl
      · exact later x listed
    exact ⟨pool'.trans pool, booked'.trans booked⟩

/-! ### PORT_RESET (R158) -/

theorem mem_allSubjects (subj : Subject) : subj ∈ allSubjects := by
  cases subj <;> simp [allSubjects]

/-- The slots of the snapshot table after a port leaves them, as the statement writes it (R138). -/
theorem leaveReaders_eq (p : PortId) (x : Option Snapshot) : leaveReaders p x = x.bind (fun y =>
    if maskOf (fun q => hasPort y.readers q && decide (q ≠ p)) = 0#3 then none
    else some { y with readers := maskOf (fun q => hasPort y.readers q && decide (q ≠ p)) }) := by
  cases x <;> rfl

/-- What is left of a port reset before the response joins: everything but the blocks it touches is as it was. -/
theorem resetPort_eq (s : State) (p : PortId) : ∃ c ln,
    s.resetPort p = { (s.modPort p PortRec.clear).leaveAllSnaps p with
        claims := c
        lines := ln
        pool := (s.withoutEntries (fun e => decide (e.owner = p))).pool
        booked := (s.withoutEntries (fun e => decide (e.owner = p))).booked }
      ∧ (∀ subj, (s.resetPort p).claim subj = if (s.claim subj).holder = some p then ClaimRec.free else s.claim subj)
      ∧ ∀ l, (s.resetPort p).line l = if (s.claim (.line l)).holder = some p
          then { s.line l with level := .low, pulseEnd := none } else s.line l := by
  generalize base : (s.modPort p PortRec.clear).leaveAllSnaps p = u
  have claims (subj : Subject) : u.claim subj = s.claim subj := by rw [← base]; rfl
  have lines (l : LineId) : u.line l = s.line l := by rw [← base]; rfl
  have listed (subj : Subject) : subj ∈ allSubjects.filter (u.holdsClaim p) ↔ (s.claim subj).holder = some p := by
    rw [List.mem_filter, holdsClaim_iff, claims]
    exact and_iff_right (mem_allSubjects subj)
  have all : s.resetPort p = ((allSubjects.filter (u.holdsClaim p)).foldl State.freeSubject u).withoutEntries
      (fun e => decide (e.owner = p)) := by
    rw [State.resetPort, State.freeEntriesOf, freeEntries_slotsWhere, base]
    rfl
  obtain ⟨c, ln, x, y, touches⟩ := freeSubjects_touches (allSubjects.filter (u.holdsClaim p)) u
  obtain ⟨pool, booked⟩ := freeSubjects_withoutEntries (p := p) (allSubjects.filter (u.holdsClaim p)) u fun x mem =>
    .inl (by rw [claims]; exact (listed x).mp mem)
  refine ⟨c, ln, ?_, fun subj => ?_, fun l => ?_⟩
  · have whole (v : State) (h : v = { u with claims := c, lines := ln, pool := x, booked := y }) (cond : Entry → Bool) :
        v.withoutEntries cond = { u with
          claims := c
          lines := ln
          pool := (v.withoutEntries cond).pool
          booked := (v.withoutEntries cond).booked } := by
      rw [h]
      rfl
    rw [all, whole _ touches, pool, booked, ← base]
    rfl
  · rw [all, withoutEntries_claim, freeSubjects_claim, claims]
    exact if_congr (listed subj) rfl rfl
  · rw [all, withoutEntries_line, freeSubjects_line, lines]
    exact if_congr (listed (.line l)) rfl rfl

/-- Settles O39: the parts of the reset one after another, each by what it changes; the port's own record is read off at the
end. -/
theorem portResetEmptiesThePort : Obligations.PortResetEmptiesThePort := by
  intro s p tag args asked
  refine ⟨fun form => congrArg _ (takeRequest_bad_form asked rfl (parseNothing_eq_none form)), ?_⟩
  rintro rfl leave
  obtain ⟨c, ln, whole, claims, lines⟩ := resetPort_eq (s.popRequest p) p
  have ports (q : PortId) : ((s.popRequest p).resetPort p).port q = ((s.popRequest p).modPort p PortRec.clear).port q := by
    rw [whole]
    rfl
  refine ⟨((s.popRequest p).resetPort p).pushResponse p tag (.ok []),
    congrArg Host.Outcome.next (takeRequest_of_asks asked rfl), ?_, fun q other => ?_, claims, lines, ?_⟩
  · rw [State.pushResponse, modPort_port_same, ports, modPort_port_same, popRequest_port, if_pos rfl]
    rfl
  · rw [State.pushResponse, modPort_port_ne _ other, ports, modPort_port_ne _ other, popRequest_port, if_neg other]
  · unfold State.pushResponse
    rw [whole]
    exact ⟨rfl, rfl, fun i => (map_get _ _ i).trans (leaveReaders_eq p _), rfl, rfl, rfl, rfl, rfl, rfl, rfl, rfl, rfl⟩

end Sys2Proof.Machine
end

section
/-! PROOFS. The tick, with the expiries that are due at it. -/

namespace Sys2Proof.Machine

variable {s : State}

/-! ### What an expiry leaves of the timers (R23) -/

theorem timerDue_iff (s : State) (x : TimerId) : s.timerDue x = true ↔ s.expiryOf x = some s.time := by
  cases x <;> exact decide_eq_true_iff

/-- An expiry that is not due does nothing (entry 4). -/
theorem timerEvent_of_not_due {x : TimerId} (early : s.expiryOf x ≠ some s.time) : s.timerEvent x = s := by
  cases x <;> exact if_neg (mt of_decide_eq_true early)

theorem timerEvent_stall_of_due {a : AxisId} (due : s.expiryOf (.stall a) = some s.time) :
    s.timerEvent (.stall a) = s.takeStall a := if_pos (decide_eq_true due)

theorem timerEvent_lease_of_due {subj : Subject} (due : s.expiryOf (.lease subj) = some s.time) :
    s.timerEvent (.lease subj) = s.takeLease subj := if_pos (decide_eq_true due)

theorem timerEvent_pulse_of_due {l : LineId} (due : s.expiryOf (.pulse l) = some s.time) :
    s.timerEvent (.pulse l) = s.endPulse l := if_pos (decide_eq_true due)

/-- A lease expiry with a holder: the subject is freed and notices are raised. -/
theorem takeLease_expiries (s : State) (subj : Subject) {q : PortId} (holder : (s.claim subj).holder = some q) :
    ∃ ports, s.takeLease subj = { s.freeSubject subj with ports := ports } := by
  unfold State.takeLease
  rw [holder]
  dsimp only
  obtain ⟨x, h⟩ := raiseAllCancelled_touches ((s.freeSubject subj).raise q (.claimLost subj)) s q (s.cancelledBy subj)
  exact ⟨x, h⟩

/-- An expiry stops timers and starts none. -/
theorem timerEvent_expiryOf (s : State) (x y : TimerId) :
    (s.timerEvent x).expiryOf y = s.expiryOf y ∨ (s.timerEvent x).expiryOf y = none := by
  by_cases due : s.expiryOf x = some s.time
  · cases x with
    | stall a =>
      rw [timerEvent_stall_of_due due, State.takeStall, raiseSubscribed_eq]
      cases y with
      | stall b =>
        by_cases same : b = a
        · right
          simp [State.expiryOf, same]
        · left
          simp [State.expiryOf, modAxis_axis, same]
      | lease subj => exact .inl rfl
      | pulse l => exact .inl rfl
    | lease subj =>
      rw [timerEvent_lease_of_due due]
      cases holder : (s.claim subj).holder with
      | none =>
        left
        rw [State.takeLease, holder]
      | some q =>
        obtain ⟨ports, freed⟩ := takeLease_expiries s subj holder
        rw [freed]
        cases y with
        | stall b =>
          obtain ⟨_, _, _, _, touches⟩ := freeSubject_touches s subj
          left
          rw [touches]
          rfl
        | lease z =>
          have claim := freeSubject_claim s subj z
          change ((s.freeSubject subj).claim z).expiry = _ ∨ ((s.freeSubject subj).claim z).expiry = none
          rw [claim]
          split
          · exact .inr rfl
          · exact .inl rfl
        | pulse l =>
          have line := freeSubject_line_record s subj l
          change ((s.freeSubject subj).line l).pulseEnd = _ ∨ ((s.freeSubject subj).line l).pulseEnd = none
          rw [line]
          split
          · exact .inr rfl
          · exact .inl rfl
    | pulse l =>
      rw [timerEvent_pulse_of_due due, State.endPulse]
      cases y with
      | stall b => exact .inl rfl
      | lease subj => exact .inl rfl
      | pulse k =>
        by_cases same : k = l
        · right
          simp [State.expiryOf, same]
        · left
          simp [State.expiryOf, modLine_line, same]
  · rw [timerEvent_of_not_due due]
    exact .inl rfl

/-- A timer that has been taken does not stand at its tick; a lease has a holder (R65). -/
theorem timerEvent_taken (law : s.ClaimLaw) (x : TimerId) : (s.timerEvent x).expiryOf x ≠ some s.time := by
  by_cases due : s.expiryOf x = some s.time
  · cases x with
    | stall a =>
      rw [timerEvent_stall_of_due due, State.takeStall, raiseSubscribed_eq]
      simp [State.expiryOf]
    | lease subj =>
      cases holder : (s.claim subj).holder with
      | none =>
        obtain ⟨free, -⟩ := law.1 subj
        have none : (s.claim subj).expiry = none := by rw [free holder]
        exact absurd (none.symm.trans due) nofun
      | some q =>
        obtain ⟨ports, freed⟩ := takeLease_expiries s subj holder
        have claim := freeSubject_claim s subj subj
        rw [if_pos rfl] at claim
        rw [timerEvent_lease_of_due due, freed]
        change ((s.freeSubject subj).claim subj).expiry ≠ _
        rw [claim]
        exact nofun
    | pulse l =>
      rw [timerEvent_pulse_of_due due, State.endPulse]
      simp [State.expiryOf]
  · rwa [timerEvent_of_not_due due]

theorem timerEvent_time (s : State) (x : TimerId) : (s.timerEvent x).time = s.time := by
  by_cases due : s.expiryOf x = some s.time
  · cases x with
    | stall a =>
      rw [timerEvent_stall_of_due due, State.takeStall, raiseSubscribed_eq]
      rfl
    | lease subj =>
      rw [timerEvent_lease_of_due due]
      cases holder : (s.claim subj).holder with
      | none => rw [State.takeLease, holder]
      | some q =>
        obtain ⟨ports, freed⟩ := takeLease_expiries s subj holder
        obtain ⟨_, _, _, _, touches⟩ := freeSubject_touches s subj
        rw [freed, touches]
    | pulse l =>
      rw [timerEvent_pulse_of_due due]
      rfl
  · rw [timerEvent_of_not_due due]

theorem Changes.claimLaw {t : State} (h : Changes true s t) (law : s.ClaimLaw) : t.ClaimLaw := by
  induction h with
  | refl => exact law
  | tail _ last ih => exact last.claimLaw ih

/-- After all timers of a list have been taken, none of them stands at the tick, and no other timer does that did not. -/
theorem timerEvents_taken (order : List TimerId) (law : s.ClaimLaw) :
    (order.foldl State.timerEvent s).time = s.time
      ∧ ∀ x, (x ∈ order ∨ s.expiryOf x ≠ some s.time) → (order.foldl State.timerEvent s).expiryOf x ≠ some s.time := by
  induction order generalizing s with
  | nil => exact ⟨rfl, fun x h => h.resolve_left (List.not_mem_nil)⟩
  | cons y rest ih =>
    obtain ⟨time, taken⟩ := ih ((changes_timerEvent y).claimLaw law)
    rw [timerEvent_time] at time taken
    refine ⟨time, fun x h => taken x ?_⟩
    by_cases later : x ∈ rest
    · exact .inl later
    · refine .inr ?_
      obtain here | early := h
      · obtain rfl | here := List.mem_cons.mp here
        · exact timerEvent_taken law x
        · exact absurd here later
      · obtain same | none := timerEvent_expiryOf s y x
        · rwa [same]
        · rw [none]
          exact nofun

/-! ### The order of the expiries is a free value (entry 7) -/

theorem insertTimer_perm (n : Nat) (x : TimerId) (l : List TimerId) : (insertTimer n x l).Perm (x :: l) := by
  induction l with
  | nil => exact .refl _
  | cons y rest ih =>
    unfold insertTimer
    split
    · exact .refl _
    · exact (ih.cons y).trans (.swap x y rest)

theorem orderTimers_perm (n : Nat) (l : List TimerId) : (orderTimers n l).Perm l := by
  induction l with
  | nil => exact .refl _
  | cons x rest ih => exact (insertTimer_perm n x _).trans (ih.cons x)

theorem allTimers_nodup : allTimers.Nodup := by decide

theorem mem_allTimers (x : TimerId) : x ∈ allTimers := by
  cases x <;> simp [allTimers, mem_allSubjects]

/-- The timers due at a tick, in the order of the draw. -/
theorem dueTimers_spec (s : State) :
    (orderTimers s.draws (allTimers.filter s.timerDue)).Nodup
      ∧ ∀ x, x ∈ orderTimers s.draws (allTimers.filter s.timerDue) ↔ s.expiryOf x = some s.time := by
  have perm := orderTimers_perm s.draws (allTimers.filter s.timerDue)
  refine ⟨perm.nodup_iff.mpr (allTimers_nodup.filter _), fun x => ?_⟩
  rw [perm.mem_iff, List.mem_filter, timerDue_iff]
  exact and_iff_right (mem_allTimers x)

/-! ### The tick (R1, R22) -/

/-- A new tick: time grows by one and the dividers of the records are in force (R1, R22). -/
def State.newTick (s : State) : State := { s with time := s.time + 1#48, axes := s.axes.map AxisRec.newTick }

theorem newTick_expiryOf (s : State) (x : TimerId) : s.newTick.expiryOf x = s.expiryOf x := by
  cases x with
  | stall a =>
    change ((s.axes.map AxisRec.newTick).get a).stall = _
    rw [map_get]
    rfl
  | lease subj => rfl
  | pulse l => rfl

theorem tick_of_none_due (none : ∀ x, s.expiryOf x ≠ some s.time) : s.tick = s.newTick := by
  have any : allTimers.any s.timerDue = false :=
    List.any_eq_false.mpr fun x _ => mt (timerDue_iff s x).mp (none x)
  unfold State.tick
  rw [any]
  rfl

theorem tick_of_due {x : TimerId} (due : s.expiryOf x = some s.time) : s.tick
    = ((orderTimers s.draws (allTimers.filter s.timerDue)).foldl State.timerEvent { s with draws := s.draws + 1 }).newTick := by
  have any : allTimers.any s.timerDue = true := List.any_eq_true.mpr ⟨x, mem_allTimers x, (timerDue_iff s x).mpr due⟩
  unfold State.tick
  rw [any]
  rfl

/-- Settles O3: the due expiries are taken one after another, each by its own command, and none is due after them. -/
theorem tickTakesDueTimersThenAdvances : Obligations.TickTakesDueTimersThenAdvances := by
  intro s law begun
  obtain ⟨nodup, listed⟩ := dueTimers_spec s
  refine ⟨s.tick, rfl, ?_⟩
  by_cases some : ∃ x, s.expiryOf x = .some s.time
  · obtain ⟨x, due⟩ := some
    have drawn : ({ s with draws := s.draws + 1 } : State).ClaimLaw := law
    obtain ⟨time, taken⟩ := timerEvents_taken (orderTimers s.draws (allTimers.filter s.timerDue)) drawn
    rw [tick_of_due due]
    refine ⟨congrArg (· + 1#48) time, fun y => ?_, fun none => absurd due (none x), fun _ => ?_⟩
    · rw [newTick_expiryOf]
      exact taken y (or_iff_not_imp_right.mpr fun h => (listed y).mpr (not_not.mp h))
    · intro command effect
      have same : effect = State.timerEvent := by
        funext u y
        have run : exec (command y) u = .next (u.timerEvent y) := by cases y <;> rfl
        simp only [effect, run]
      refine ⟨_, nodup, listed, ?_⟩
      rw [same]
      rfl
  · have none : ∀ x, s.expiryOf x ≠ .some s.time := fun x due => some ⟨x, due⟩
    rw [tick_of_none_due none]
    refine ⟨rfl, fun x => ?_, fun _ => rfl, fun due => absurd due some⟩
    rw [newTick_expiryOf]
    exact none x

end Sys2Proof.Machine
end

section
/-! PROOFS. The compare scheduler: the renumbering of an axis (R86), an accepted and a refused BOOK (R87 to R89) and one
firing (R105 to R108). -/

namespace Sys2Proof.Machine

variable {s : State}

/-! ### The list of a renumbered axis (R86) -/

/-- A listed entry after the renumbering of its axis: its serial is its place in the list. -/
def State.relisted (s : State) (a : AxisId) (x : SlotId × Entry) : SlotId × Entry :=
  (x.1, { x.2 with serial := ((s.axisList a).map Prod.fst).idxOf x.1 })

theorem renumber_axis (s : State) (a b : AxisId) : (s.renumber a).axis b = s.axis b := by
  rw [State.renumber, giveSerials_pool]
  rfl

theorem mem_axisList_renumber {a : AxisId} {i : SlotId} {f : Entry} :
    (i, f) ∈ (s.renumber a).axisList a ↔ (i, f) ∈ (s.axisList a).map (s.relisted a) := by
  rw [mem_axisList, List.mem_map]
  constructor
  · rintro ⟨here, axis⟩
    obtain ⟨e, entry, rfl⟩ := renumber_entry here
    split at axis
    next on => exact ⟨(i, e), mem_axisList.mpr ⟨entry, on⟩, by simp [State.relisted, on]⟩
    next off => exact absurd axis off
  · rintro ⟨⟨j, e⟩, listed, same⟩
    obtain ⟨rfl, rfl⟩ := Prod.mk.inj same
    obtain ⟨entry, axis⟩ := mem_axisList.mp listed
    rw [renumber_slot, if_pos (mem_axisList_slots.mpr ⟨e, entry, axis⟩), entry]
    exact ⟨rfl, axis⟩

/-- The places of a list without repetitions, read in list order, are 0, 1, 2, … -/
theorem map_idxOf_self {α : Type} [BEq α] [LawfulBEq α] {l : List α} (distinct : l.Nodup) :
    l.map (fun x => l.idxOf x) = List.range l.length := by
  refine List.ext_getElem (by simp) fun n here _ => ?_
  rw [List.getElem_map, List.getElem_range, distinct.idxOf_getElem]

theorem relisted_serials (s : State) (a : AxisId) :
    ((s.axisList a).map (s.relisted a)).map (fun x => x.2.serial) = List.range (s.axisList a).length := by
  have places := map_idxOf_self (axisList_slots_nodup s a)
  rw [List.map_map, List.length_map] at places
  rw [List.map_map]
  exact places

/-- The list with its new serials stands in the order of R85: the targets are the old ones, the serials grow. -/
theorem relisted_sorted (s : State) (a : AxisId) :
    ((s.axisList a).map (s.relisted a)).Pairwise (fun x y => ListedBefore (s.axis a).cfg.cpr x y ∧ x.2.serial < y.2.serial) := by
  have serials : ((s.axisList a).map (s.relisted a)).Pairwise (fun x y => x.2.serial < y.2.serial) := by
    rw [← List.pairwise_map (f := fun x : SlotId × Entry => x.2.serial) (R := (· < ·)), relisted_serials]
    exact List.pairwise_lt_range
  rw [List.pairwise_map] at serials ⊢
  refine (axisList_sorted s a).imp₂ (fun x y before serial => ⟨?_, serial⟩) serials
  simp only [ListedBefore, entryLe_iff] at before ⊢
  simp only [State.relisted] at serial ⊢
  omega

/-- The list of a renumbered axis is the old list with the new serials. -/
theorem renumber_axisList (s : State) (a : AxisId) : (s.renumber a).axisList a = (s.axisList a).map (s.relisted a) := by
  have slots : ((s.axisList a).map (s.relisted a)).map Prod.fst = (s.axisList a).map Prod.fst := by
    rw [List.map_map]
    rfl
  have once : ((s.axisList a).map (s.relisted a)).Nodup := List.Nodup.of_map Prod.fst (slots ▸ axisList_slots_nodup s a)
  have same : ((s.renumber a).axisList a).Perm ((s.axisList a).map (s.relisted a)) :=
    (List.perm_ext_iff_of_nodup (List.Nodup.of_map Prod.fst (axisList_slots_nodup _ a)) once).mpr fun _ => mem_axisList_renumber
  have increasing := relisted_sorted s a
  have sorted := axisList_sorted (s.renumber a) a
  rw [renumber_axis] at sorted
  refine List.Perm.eq_of_pairwise (fun x y inOld inNew before after => ?_) sorted (increasing.imp And.left) same
  refine List.inj_on_of_nodup_map (f := fun x : SlotId × Entry => x.2.serial) ?_ (mem_axisList_renumber.mp inOld) inNew ?_
  · rw [relisted_serials]
    exact List.nodup_range
  · simp only [ListedBefore, entryLe_iff] at before after
    change x.2.serial = y.2.serial
    omega

/-- Settles O30: the renumbered list is a permutation of the old one with new serials, and both stand in the same strict order.
-/
theorem renumberingKeepsTheOrder : Obligations.RenumberingKeepsTheOrder := by
  unfold Obligations.RenumberingKeepsTheOrder
  intro s a
  dsimp only
  rw [renumber_axisList]
  refine ⟨?_, relisted_serials s a, ?_, fun i => ?_, fun i e entry off => ?_⟩
  · rw [List.map_map]
    rfl
  · rw [State.renumber, giveSerials_pool]
  · rw [renumber_slot]
    split
    · exact ⟨rfl, by rw [Option.map_map]; rfl⟩
    · exact ⟨rfl, rfl⟩
  · rw [renumber_slot, if_neg]
    rintro listed
    obtain ⟨f, entry', axis⟩ := mem_axisList_slots.mp listed
    rw [entry] at entry'
    exact off (Option.some.inj entry' ▸ axis)

/-! ### Room in the pool (R80, R81, R88) -/

theorem freeSlot?_eq_some_iff {i : SlotId} :
    s.freeSlot? = some i ↔ (s.slot i).entry = none ∧ ∀ j, j < i → (s.slot j).entry ≠ none := by
  rw [State.freeSlot?, ← Fin.find?_eq_find?_finRange, Fin.find?_eq_some_iff]
  simp [Option.isSome_iff_ne_none]

theorem freeSlot?_eq_none_iff : s.freeSlot? = none ↔ ∀ i, (s.slot i).entry ≠ none := by
  rw [State.freeSlot?, ← Fin.find?_eq_find?_finRange, Fin.find?_eq_none_iff]
  simp [Option.isSome_iff_ne_none]

/-- Every entry has one of the three owners: a pool with no FREE slot holds 64 entries. -/
theorem ownedBy_sum_of_full (full : ∀ i, (s.slot i).entry ≠ none) : s.ownedBy 0 + s.ownedBy 1 + s.ownedBy 2 = 64 := by
  have two : s.ownedBy 0 + s.ownedBy 1
      = (List.finRange 64).countP (fun i => decide ((s.slot i).entry.map Entry.owner ≠ some 2)) := by
    refine countP_add_of_split _ fun i => ?_
    obtain ⟨e, entry⟩ := Option.ne_none_iff_exists'.mp (full i)
    generalize hq : e.owner = q
    rw [entry, Option.map_some, hq]
    fin_cases q <;> rfl
  have all : (List.finRange 64).countP (fun i => decide ((s.slot i).entry.map Entry.owner ≠ some 2)) + s.ownedBy 2
      = (List.finRange 64).countP (fun _ => true) := by
    refine countP_add_of_split _ fun i => ?_
    by_cases last : (s.slot i).entry.map Entry.owner = some 2 <;> simp [last]
  rw [two, all, List.countP_true, List.length_finRange]

/-- While the accounts of the pool are right, room for a port means a FREE slot (R81, R88). -/
theorem freeSlot?_of_room {p : PortId} (law : s.PoolLaw) (room : s.booked.get p < 8 ∨ s.sharedPlaces < 40) :
    ∃ i, s.freeSlot? = some i := by
  rw [← Option.ne_none_iff_exists']
  intro noneFree
  have full := ownedBy_sum_of_full (freeSlot?_eq_none_iff.mp noneFree)
  obtain ⟨counts, shared⟩ := law
  rw [← counts, ← counts, ← counts] at full
  unfold State.sharedPlaces at room
  fin_cases p <;> simp only [Fin.zero_eta, Fin.mk_one, Fin.reduceFinMk] at room <;> omega

theorem hasRoom_iff (p : PortId) : s.hasRoom p = true ↔ s.booked.get p < 8 ∨ s.sharedPlaces < 40 := by
  rw [State.hasRoom, Bool.or_eq_true, decide_eq_true_iff, decide_eq_true_iff]
  rfl

/-! ### BOOK (R87 to R89) -/

theorem renumber_gen (s : State) (a : AxisId) (i : SlotId) : ((s.renumber a).slot i).gen = (s.slot i).gen := by
  rw [renumber_slot]
  split <;> rfl

theorem readySerial_gen (s : State) (a : AxisId) (i : SlotId) : ((s.readySerial a).slot i).gen = (s.slot i).gen := by
  unfold State.readySerial
  split
  · exact renumber_gen s a i
  · rfl

theorem readySerial_booked (s : State) (a : AxisId) : (s.readySerial a).booked = s.booked := by
  obtain ⟨x, y, ready⟩ := readySerial_touches s a
  rw [ready]

/-- An entry put into a slot with the axis's next serial, after the renumbering where it is due (R86). -/
theorem putEntry_takeSerial (s : State) (a : AxisId) (i : SlotId) (f : Nat → Entry) :
    (s.takeSerial a).1.putEntry i (f (s.takeSerial a).2) = { s.readySerial a with
      pool := upd (s.readySerial a).pool i ⟨(s.slot i).gen, some (f ((s.readySerial a).nextSerial.get a))⟩
      nextSerial := upd (s.readySerial a).nextSerial a ((s.readySerial a).nextSerial.get a + 1) } := by
  rw [← readySerial_gen s a]
  rfl

/-- Placing an entry: the slot, the count and the next serial (R86, R89). -/
theorem place_eq (s : State) (p : PortId) (b : BookArgs) (i : SlotId) :
    s.place p b i = { s.readySerial b.axis with
      pool := upd (s.readySerial b.axis).pool i ⟨(s.slot i).gen, some (s.newEntry p b ((s.readySerial b.axis).nextSerial.get b.axis))⟩
      booked := upd s.booked p (s.booked.get p + 1)
      nextSerial := upd (s.readySerial b.axis).nextSerial b.axis ((s.readySerial b.axis).nextSerial.get b.axis + 1) } := by
  rw [State.place, putEntry_takeSerial s b.axis i (s.newEntry p b), State.countBooked, readySerial_booked]

theorem popRequest_giveSerials (s : State) (p : PortId) (n : Nat) (l : List SlotId) :
    (s.popRequest p).giveSerials n l = (s.giveSerials n l).popRequest p := by
  induction l generalizing s n with
  | nil => rfl
  | cons i rest ih =>
    unfold State.giveSerials
    rw [popRequest_slot]
    split
    next e _ => exact ih (s.putEntry i { e with serial := n }) (n + 1)
    next => exact ih s (n + 1)

theorem popRequest_readySerial (s : State) (p : PortId) (a : AxisId) :
    (s.popRequest p).readySerial a = (s.readySerial a).popRequest p := by
  unfold State.readySerial
  rw [popRequest_nextSerial]
  split
  · rw [State.renumber, State.renumber]
    exact congrArg (fun t : State => { t with nextSerial := upd s.nextSerial a (s.axisList a).length })
      (popRequest_giveSerials s p 0 _)
  · rfl

theorem popRequest_place (s : State) (p q : PortId) (b : BookArgs) (i : SlotId) :
    (s.popRequest p).place q b i = (s.place q b i).popRequest p := by
  rw [place_eq, place_eq, popRequest_readySerial]
  rfl

theorem namesLine_iff (b : BookArgs) : b.action.namesLine = true ↔ BookNamesLine b := by
  unfold BookNamesLine
  cases b.action <;> simp [ActionKind.namesLine]

theorem mayBook_iff (p : PortId) (b : BookArgs) :
    s.mayBook p b = true ↔ (BookNamesLine b → (s.claim (.line b.line)).holder = some p) := by
  rw [State.mayBook, Bool.or_eq_true, Bool.not_eq_true', ← Bool.not_eq_true, namesLine_iff, holdsClaim_iff, imp_iff_not_or]

theorem renewBooked_of_line {b : BookArgs} (line : BookNamesLine b) : s.renewBooked b = s.used (.line b.line) := by
  rw [State.renewBooked, if_pos ((namesLine_iff b).mpr line), renewByUse_eq_used]

theorem renewBooked_of_no_line {b : BookArgs} (other : ¬ BookNamesLine b) : s.renewBooked b = s :=
  if_neg (mt (namesLine_iff b).mp other)

theorem bookReply_of_stranger {p : PortId} {args : List Byte} {b : BookArgs} (parsed : parseBook args = some b)
    (stranger : ¬ (BookNamesLine b → (s.claim (.line b.line)).holder = some p)) :
    bookReply p s args = (s, .refused .notHolder) := by
  rw [bookReply, withArgs_of_parse parsed, if_neg (mt (mayBook_iff p b).mp stranger)]

theorem bookReply_of_claimed {p : PortId} {args : List Byte} {b : BookArgs} (parsed : parseBook args = some b)
    (claimed : BookNamesLine b → (s.claim (.line b.line)).holder = some p) :
    bookReply p s args = needValues (fun s => bookAccepted (s.axis b.axis).cfg.cpr b) (bookEffect p b) s := by
  rw [bookReply, withArgs_of_parse parsed, if_pos ((mayBook_iff p b).mpr claimed)]

theorem bookEffect_of_room {p : PortId} {i : SlotId} (b : BookArgs) (room : s.booked.get p < 8 ∨ s.sharedPlaces < 40)
    (free : s.freeSlot? = some i) :
    bookEffect p b s = ((s.place p b i).renewBooked b, .ok (handleBytes (s.handleOf i)
      ++ [entryStateByte (s.bookState b.axis), byte ((s.place p b i).booked.get p)])) := by
  unfold bookEffect
  rw [(hasRoom_iff p).mpr room, free]

theorem bookEffect_of_full {p : PortId} (b : BookArgs) (full : ¬ (s.booked.get p < 8 ∨ s.sharedPlaces < 40)) :
    bookEffect p b s = (s, .refused .poolFull [byte (s.booked.get p)]) := by
  unfold bookEffect
  rw [Bool.eq_false_iff.mpr (mt (hasRoom_iff p).mp full)]

/-- An accepted BOOK by its whole next state. -/
theorem exec_book_accepted {p : PortId} {tag : Byte} {args : List Byte} {b : BookArgs} {i : SlotId}
    (asked : s.asks p 0x30#8 tag args) (parsed : parseBook args = some b)
    (claimed : BookNamesLine b → (s.claim (.line b.line)).holder = some p) (fits : BookInRange (s.axis b.axis).cfg.cpr b)
    (room : s.booked.get p < 8 ∨ s.sharedPlaces < 40) (free : s.freeSlot? = some i) :
    exec (.book p) s = .next (((s.place p b i).renewBooked b).answered p tag ([0x00#8] ++ handleBytes (s.handleOf i)
      ++ [entryStateByte (s.bookState b.axis), byte (s.booked.get p + 1)])) := by
  refine congrArg Host.Outcome.next (takeRequest_answered asked rfl ?_)
  rw [bookReply_of_claimed (s := s.popRequest p) parsed claimed,
    needValues_of_met (s := s.popRequest p) ((bookAccepted_iff _ b).mpr fits),
    bookEffect_of_room (s := s.popRequest p) b room free, popRequest_place]
  have counted : ((s.place p b i).popRequest p).booked.get p = s.booked.get p + 1 := by
    rw [place_eq]
    exact upd_get_same _ _ _
  rw [counted]
  by_cases line : BookNamesLine b
  · rw [renewBooked_of_line line, renewBooked_of_line line, popRequest_used]
    rfl
  · rw [renewBooked_of_no_line line, renewBooked_of_no_line line]
    rfl

/-- Settles O26: room means a FREE slot, because a full pool exceeds every port's share; the placing commutes with the taking of
the request. -/
theorem bookPlacesTheEntry : Obligations.BookPlacesTheEntry := by
  unfold Obligations.BookPlacesTheEntry
  intro s p tag args b law asked parsed claimed fits room ready
  obtain ⟨i, free⟩ := freeSlot?_of_room law room
  obtain ⟨empty, lowest⟩ := freeSlot?_eq_some_iff.mp free
  refine ⟨i, empty, lowest, ?_⟩
  intro st e placed body
  have place : s.place p b i = placed := place_eq s p b i
  have answer : [0x00#8] ++ handleBytes (s.handleOf i) ++ [entryStateByte (s.bookState b.axis), byte (s.booked.get p + 1)]
      = body := by
    have state : entryStateByte (s.bookState b.axis) = if st = .armed then 1#8 else 0#8 := by
      simp only [st, State.bookState]
      split <;> rfl
    rw [state]
    rfl
  have accepted := exec_book_accepted asked parsed claimed fits room free
  rw [place, answer] at accepted
  refine ⟨fun line => ?_, fun other => ?_⟩
  · rw [accepted, renewBooked_of_line line]
  · rw [accepted, renewBooked_of_no_line other]

/-- Settles O27: the four checks in their order. -/
theorem bookIsCheckedInOrder : Obligations.BookIsCheckedInOrder := by
  unfold Obligations.BookIsCheckedInOrder
  intro s p tag args asked
  refine ⟨fun form => congrArg Host.Outcome.next (takeRequest_bad_form asked rfl form), fun b parsed => ?_⟩
  intro claimed
  refine ⟨fun stranger => congrArg Host.Outcome.next (takeRequest_answered asked rfl ?_), fun claim unfit =>
    congrArg Host.Outcome.next (takeRequest_answered asked rfl ?_), fun claim fits own shared =>
    congrArg Host.Outcome.next (takeRequest_answered asked rfl ?_)⟩
  · rw [bookReply_of_stranger (s := s.popRequest p) parsed stranger]
    rfl
  · rw [bookReply_of_claimed (s := s.popRequest p) parsed claim, needValues_of_unmet (s := s.popRequest p)
      (Bool.eq_false_iff.mpr (mt (bookAccepted_iff _ b).mp unfit))]
    rfl
  · have full : ¬ (s.booked.get p < 8 ∨ s.sharedPlaces < 40) := by omega
    rw [bookReply_of_claimed (s := s.popRequest p) parsed claim,
      needValues_of_met (s := s.popRequest p) ((bookAccepted_iff _ b).mpr fits), bookEffect_of_full (s := s.popRequest p) b full]
    rfl

/-! ### A firing (R105 to R108) -/

variable {a : AxisId} {i : SlotId} {e : Entry}

/-- A line that flips lands on the one level or on the other. -/
theorem flip_eq_flip_iff (x y : Level) : x.flip = y.flip ↔ ¬ x.flip = y := by
  cases x <;> cases y <;> decide

/-- Table 6.3 for TOGGLE, by the level the line lands on. -/
theorem act_toggle (idle : Level) (now : Time) (r : LineRec) :
    r.act idle now .toggle
      = ⟨r.level.flip, none, if r.level.flip = idle then r.activations else r.activations + 1#32⟩ := by
  simp only [LineRec.act, flip_eq_flip_iff, ite_not]

/-- The action and the notice of a firing touch neither the pool nor its counts. -/
theorem acted_keeps (s : State) (e : Entry) (h : Handle) (t : Time) (ended : Bool) :
    let told := (s.perform e h t).notifyFired e h t ended
    told.pool = s.pool ∧ told.booked = s.booked ∧ told.nextSerial = s.nextSerial := by
  obtain ⟨_, _, _, _, _, touches⟩ := perform_touches s e h t
  unfold State.notifyFired
  rw [touches]
  split <;> exact ⟨rfl, rfl, rfl⟩

theorem notifyFired_putEntry (s : State) (i : SlotId) (f e : Entry) (h : Handle) (t : Time) (ended : Bool) :
    (s.putEntry i f).notifyFired e h t ended = (s.notifyFired e h t ended).putEntry i f := by
  unfold State.notifyFired
  split <;> rfl

/-- A firing: the action, the notice, the count and the settling (R105). -/
theorem fire_of_entry (entry : (s.slot i).entry = some e) (t : Time) :
    s.fire a t i = ((((s.perform e (s.handleOf i) t).notifyFired e (s.handleOf i) t
        (e.counted.settled (s.axis a).cfg.cpr).isNone)).putEntry i e.counted).settle i a (e.counted.settled (s.axis a).cfg.cpr) := by
  rw [← notifyFired_putEntry]
  simp only [State.fire, entry]

/-- Settling an entry that ends: its slot becomes FREE and its owner's count falls (R84, R106). -/
theorem settle_ended (s : State) (a : AxisId) (i : SlotId) (f : Entry) :
    (s.putEntry i f).settle i a none = { s with
      pool := upd s.pool i ⟨(s.slot i).gen + 1#8, none⟩
      booked := upd s.booked f.owner (s.booked.get f.owner - 1) } := by
  have here : (s.putEntry i f).slot i = { s.slot i with entry := some f } := upd_get_same _ _ _
  rw [State.settle, freeEntry_of_entry (congrArg PoolSlot.entry here), here]
  refine congrArg (fun x => ({ s with pool := x, booked := upd s.booked f.owner (s.booked.get f.owner - 1) } : State)) ?_
  exact upd_upd _ _ _ _

/-- Settling an entry that goes on: its new place and the next serial, after the renumbering where it is due (R86, R107). -/
theorem settle_going_on (s : State) (a : AxisId) (i : SlotId) (e : Entry) :
    s.settle i a (some e) = { s.readySerial a with
      pool := upd (s.readySerial a).pool i ⟨(s.slot i).gen, some { e with serial := (s.readySerial a).nextSerial.get a }⟩
      nextSerial := upd (s.readySerial a).nextSerial a ((s.readySerial a).nextSerial.get a + 1) } :=
  putEntry_takeSerial s a i (fun n => { e with serial := n })

theorem useRepeat_eq (n : Nat) : useRepeat n = if n ≤ 1 then none else some (if n = 65535 then 65535 else n - 1) := by
  unfold useRepeat Config.repeatsUnlimited
  grind

theorem settled_of_one_shot {cpr : Nat} (oneShot : e.periodic = none) : e.counted.settled cpr = none := by
  simp only [Entry.settled, Entry.counted, oneShot]

theorem settled_of_spent {cpr : Nat} {interval : Int} {n : Nat} (periodic : e.periodic = some ⟨interval, n⟩) (spent : n ≤ 1) :
    e.counted.settled cpr = none := by
  simp only [Entry.settled, Entry.counted, periodic, useRepeat_eq, if_pos spent]

theorem settled_of_repeats {cpr : Nat} {interval : Int} {n : Nat} (periodic : e.periodic = some ⟨interval, n⟩) (more : 2 ≤ n) :
    e.counted.settled cpr = if absInRange cpr (absPos cpr e.target + interval)
      then some { e.counted with
        target := ofAbs cpr (absPos cpr e.target + interval)
        periodic := some ⟨interval, if n = 65535 then 65535 else n - 1⟩ }
      else none := by
  simp only [Entry.settled, Entry.counted, periodic, useRepeat_eq, if_neg (Nat.not_le.mpr more)]

/-- Settles O32: the action and the notice leave the pool, so the count and the settling act on the entry that fired. -/
theorem firingActsCountsTellsAndSettles : Obligations.FiringActsCountsTellsAndSettles := by
  unfold Obligations.FiringActsCountsTellsAndSettles
  intro s a t i e entry axis cpr h drive acted tell target ends
  have performed : s.perform e h t = acted := by
    simp only [State.perform, acted]
    cases e.action with
    | toggle l => exact congrArg (s.modLine l) (funext fun r => act_toggle _ _ r)
    | capture share => exact congrArg (fun m => (s.capture (.compare e.owner h) t m none).1) (onePort_or _ _)
    | _ => rfl
  have told (ended : Bool) : (s.perform e h t).notifyFired e h t ended = tell ended := by
    rw [performed, State.notifyFired, axis]
    rfl
  have keeps (ended : Bool) : (tell ended).pool = s.pool ∧ (tell ended).booked = s.booked ∧ (tell ended).nextSerial = s.nextSerial := by
    rw [← told]
    exact acted_keeps s e h t ended
  have fired : s.fire a t i = ((tell (e.counted.settled cpr).isNone).putEntry i e.counted).settle i a (e.counted.settled cpr) := by
    rw [fire_of_entry entry, ← told]
    rfl
  refine ⟨fun ended => ?_, fun interval n q periodic more there => ?_⟩
  · have noMore : e.counted.settled cpr = none := by
      obtain oneShot | ⟨interval, n, periodic, spent | beyond⟩ := ended
      · exact settled_of_one_shot oneShot
      · exact settled_of_spent periodic spent
      · by_cases spent : n ≤ 1
        · exact settled_of_spent periodic spent
        · rw [settled_of_repeats periodic (by omega), if_neg]
          exact fun inRange => beyond ⟨_, (position_of_absPos cpr _ _).mpr ⟨inRange, cpr_pos_of_absInRange inRange, rfl⟩⟩
    obtain ⟨pool, booked, -⟩ := keeps true
    rw [fired, noMore, Option.isNone_none, settle_ended, State.slot, pool, booked]
    rfl
  · intro counted told' ready
    obtain ⟨inRange, -, rfl⟩ := (position_of_absPos cpr _ q).mp there
    obtain ⟨pool, -, serials⟩ := keeps false
    have further := settled_of_repeats (cpr := cpr) periodic more
    rw [if_pos (show absInRange cpr (absPos cpr e.target + interval) = true from inRange)] at further
    have put : (tell false).putEntry i e.counted = told' := by
      rw [State.putEntry, State.setSlot, State.slot, pool]
      rfl
    have isReady : told'.readySerial a = ready := by
      unfold State.readySerial
      rw [show told'.nextSerial = s.nextSerial from serials]
      rfl
    have gen : (told'.slot i).gen = (s.slot i).gen := by
      rw [State.slot, show told'.pool = upd s.pool i ⟨(s.slot i).gen, some { e with fireCount := counted }⟩ from rfl, upd_get_same]
    rw [fired, further, Option.isNone_some, put, settle_going_on, isReady, gen]
    rfl

end Sys2Proof.Machine
end

section
/-! PROOFS. Captures (R126 to R128), SNAP (R130), and the inputs whose filters take a level at every CLKIN period (R5, R120,
R121). -/

namespace Sys2Proof.Machine

variable {s : State}

/-! ### A capture (R126 to R128) -/

theorem freeSnap?_eq_some_iff {i : Fin 16} :
    s.freeSnap? = some i ↔ s.snaps.get i = none ∧ ∀ j, j < i → s.snaps.get j ≠ none := by
  rw [State.freeSnap?, ← Fin.find?_eq_find?_finRange, Fin.find?_eq_some_iff]
  simp [Option.isSome_iff_ne_none]

theorem freeSnap?_eq_none_iff : s.freeSnap? = none ↔ ∀ i, s.snaps.get i ≠ none := by
  rw [State.freeSnap?, ← Fin.find?_eq_find?_finRange, Fin.find?_eq_none_iff]
  simp [Option.isSome_iff_ne_none]

/-- Telling the ports of a mask in the words of the statements. -/
theorem tell_maskOf (s : State) (m : PortId → Bool) (requester : Option PortId) (n : Notice) :
    s.tell (maskOf m) requester n = s.told (fun q => m q && decide (requester ≠ some q)) n := by
  rw [State.tell, raiseTo_eq_told]
  simp only [hasPort_maskOf]

theorem unpruned_eq (s : State) (cands : PortMask) :
    s.unpruned cands = maskOf (fun q => hasPort cands q && decide (s.holds.get q < 8)) := by
  refine congrArg maskOf (funext fun q => ?_)
  rw [← decide_not, Config.holdLimit]
  simp only [Nat.not_le]

theorem captureInto_of_no_reader (cause : Cause) (t : Time) {readers : PortId → Bool} (requester : Option PortId)
    (noReader : ∀ q, readers q = false) : s.captureInto cause t (maskOf readers) requester = (s, .noReader) := by
  rw [State.captureInto, if_pos ((maskOf_eq_zero _).mpr noReader)]

theorem captureInto_of_full (cause : Cause) (t : Time) {readers : PortId → Bool} (requester : Option PortId)
    (reading : ∃ q, readers q = true) (full : s.freeSnap? = none) :
    s.captureInto cause t (maskOf readers) requester
      = (s.tell (maskOf readers) requester (.snapshotSkipped cause.cls 1 .tableFull), .tableFull) := by
  obtain ⟨q, reads⟩ := reading
  rw [State.captureInto, if_neg fun nobody => Bool.eq_false_iff.mp ((maskOf_eq_zero _).mp nobody q) reads]
  simp only [full]

theorem captureInto_of_free (cause : Cause) (t : Time) {readers : PortId → Bool} (requester : Option PortId) {i : Fin 16}
    (reading : ∃ q, readers q = true) (free : s.freeSnap? = some i) :
    s.captureInto cause t (maskOf readers) requester
      = ((s.fillSnap i cause t (maskOf readers)).tell (maskOf readers) requester (.snapshotReady cause.cls 1 s.nextCapture),
          .filled s.nextCapture) := by
  obtain ⟨q, reads⟩ := reading
  rw [State.captureInto, if_neg fun nobody => Bool.eq_false_iff.mp ((maskOf_eq_zero _).mp nobody q) reads]
  simp only [free]

theorem capture_of_exhausted {cause : Cause} {t : Time} {cands : PortMask} {requester : Option PortId}
    (exhausted : 281474976710656 ≤ s.nextCapture) : s.capture cause t cands requester = (s, .exhausted) :=
  if_pos exhausted

theorem capture_of_number {cause : Cause} {t : Time} {cands : PortMask} {requester : Option PortId}
    (number : s.nextCapture < 281474976710656) :
    s.capture cause t cands requester
      = (s.tell (s.pruned cands) requester (.snapshotSkipped cause.cls 1 .holdLimit)).captureInto cause t
          (maskOf (fun q => hasPort cands q && decide (s.holds.get q < 8))) requester := by
  rw [State.capture, Config.captureEnd, if_neg (Nat.not_le.mpr number), unpruned_eq]

/-- Settles O33: pruning, then by whether a reader and a FREE slot are left. -/
theorem captureEndsInOneOfThreeWays : Obligations.CaptureEndsInOneOfThreeWays := by
  unfold Obligations.CaptureEndsInOneOfThreeWays
  intro s cause t cands requester told full reader pruned part
  refine ⟨capture_of_exhausted, fun number => ?_⟩
  have prunes : s.tell (s.pruned cands) requester (.snapshotSkipped cause.cls 1 .holdLimit) = pruned := tell_maskOf s full requester _
  rw [capture_of_number number, prunes]
  refine ⟨captureInto_of_no_reader cause t requester, fun reading noneFree => ?_, fun i reading empty lowest => ?_⟩
  · rw [captureInto_of_full (s := pruned) cause t requester reading (freeSnap?_eq_none_iff.mpr noneFree), tell_maskOf]
  · have parts : pruned.axisParts = Vector.ofFn (fun a => part (s.axis a)) := congrArg Vector.ofFn (funext fun a => part_eq (s.axis a))
    rw [captureInto_of_free (s := pruned) cause t requester reading (freeSnap?_eq_some_iff.mpr ⟨empty, lowest⟩), tell_maskOf,
      State.fillSnap, parts]
    simp only [hasPort_maskOf]
    rfl

/-! ### SNAP (R130) -/

variable {p : PortId}

theorem popRequest_tell (s : State) (p : PortId) (m : PortMask) (requester : Option PortId) (n : Notice) :
    (s.popRequest p).tell m requester n = (s.tell m requester n).popRequest p := by
  rw [State.tell, State.tell, raiseTo_eq_told, raiseTo_eq_told, told_popRequest]

theorem popRequest_captureInto (s : State) (p : PortId) (cause : Cause) (t : Time) (readers : PortMask) (requester : Option PortId) :
    (s.popRequest p).captureInto cause t readers requester
      = ((s.captureInto cause t readers requester).1.popRequest p, (s.captureInto cause t readers requester).2) := by
  have table : (s.popRequest p).freeSnap? = s.freeSnap? := rfl
  unfold State.captureInto
  rw [table]
  split
  · rfl
  · split
    · rw [popRequest_tell]
    · next i _ =>
      have fill : (s.popRequest p).fillSnap i cause t readers = (s.fillSnap i cause t readers).popRequest p := rfl
      rw [fill, popRequest_tell]
      rfl

/-- Taking a request and a capture touch different parts of the state: a capture reads no request queue. -/
theorem popRequest_capture (s : State) (p : PortId) (cause : Cause) (t : Time) (cands : PortMask) (requester : Option PortId) :
    (s.popRequest p).capture cause t cands requester
      = ((s.capture cause t cands requester).1.popRequest p, (s.capture cause t cands requester).2) := by
  have counts : (s.popRequest p).pruned cands = s.pruned cands ∧ (s.popRequest p).unpruned cands = s.unpruned cands := ⟨rfl, rfl⟩
  unfold State.capture
  rw [counts.1, counts.2, popRequest_tell, popRequest_nextCapture, popRequest_captureInto]
  split <;> rfl

/-- The port of a SNAP is pruned exactly at its hold limit (R127, R130). -/
theorem requester_pruned_iff (s : State) (p : PortId) (share : PortMask) :
    hasPort (s.pruned (onePort p ||| share)) p = true ↔ 8 ≤ s.holds.get p := by
  rw [State.pruned, hasPort_maskOf, onePort_or, hasPort_maskOf, decide_eq_true rfl, Bool.true_or, Bool.true_and, decide_eq_true_iff]
  rfl

/-- SNAP by the outcome of its capture. -/
theorem exec_snap {tag : Byte} {args body : List Byte} {share : PortMask} (asked : s.asks p 0x40#8 tag args)
    (parsed : parseSnap args = some share)
    (answer : snapBody s.time (hasPort (s.pruned (onePort p ||| share)) p)
      (s.capture (.host p) s.time (onePort p ||| share) (some p)).2 = ⟨body, none⟩) :
    exec (.snap p) s = .next ((s.capture (.host p) s.time (onePort p ||| share) (some p)).1.answered p tag body) := by
  refine congrArg Host.Outcome.next (takeRequest_answered asked rfl ?_)
  have counts : (s.popRequest p).pruned (onePort p ||| share) = s.pruned (onePort p ||| share) := rfl
  rw [snapReply, withArgs_of_parse parsed, ← answer]
  simp only [popRequest_time, popRequest_capture, counts]

/-- Settles O34: the capture commutes with the taking of the request; the response by its outcome and by whether the port was
pruned. -/
theorem snapTakesAHostCapture : Obligations.SnapTakesAHostCapture := by
  unfold Obligations.SnapTakesAHostCapture
  intro s p tag args asked
  refine ⟨fun form => congrArg Host.Outcome.next (takeRequest_bad_form asked rfl form), fun share parsed => ?_⟩
  rw [← onePort_or]
  intro out limit
  have pruned : limit → hasPort (s.pruned (onePort p ||| share)) p = true := (requester_pruned_iff s p share).mpr
  have kept : ¬ limit → hasPort (s.pruned (onePort p ||| share)) p = false :=
    fun below => Bool.eq_false_iff.mpr (mt (requester_pruned_iff s p share).mp below)
  refine ⟨fun result => exec_snap asked parsed ?_, fun result => exec_snap asked parsed ?_,
    fun result at8 => exec_snap asked parsed ?_, fun result below => exec_snap asked parsed ?_, fun n result =>
    ⟨fun at8 => exec_snap asked parsed ?_, fun below => exec_snap asked parsed ?_⟩⟩
  · rw [result]
    rfl
  · rw [result]
    rfl
  · rw [result, pruned at8]
    rfl
  · rw [result, kept below]
    rfl
  · rw [result, pruned at8]
    rfl
  · rw [result, kept below]
    rfl

/-! ### Gate inputs (R5, R120, R121) -/

theorem runCap_of_kept {c : CapId} {raw : Level} (kept : (filterRun 3 raw (s.cap.get c)).accepted = (s.cap.get c).accepted) :
    s.runCap c raw = { s with cap := upd s.cap c (filterRun 3 raw (s.cap.get c)) } :=
  if_pos kept

theorem isHigh_eq (l : Level) : isHigh l = decide (l = .high) := by
  cases l <;> rfl

/-- The subscriptions that an edge to a level names (R121). -/
theorem edgeNamed_eq (e : Edges) (raw : Level) :
    edgeNamed e (isHigh raw) = (decide (e = .both) || decide (e = .rising ∧ raw = .high) || decide (e = .falling ∧ raw = .low)) := by
  cases e <;> cases raw <;> decide

theorem runCap_of_edge {c : CapId} {raw : Level} (edge : (filterRun 3 raw (s.cap.get c)).accepted ≠ (s.cap.get c).accepted) :
    s.runCap c raw = ({ s with cap := upd s.cap c (filterRun 3 raw (s.cap.get c)) } : State).edgeCapture c (isHigh raw) :=
  if_neg edge

/-- Settles O35: each row is one filter run, followed by a capture where it accepts a new level. -/
theorem gateInputsRunTheirFilters : Obligations.GateInputsRunTheirFilters := by
  unfold Obligations.GateInputsRunTheirFilters
  refine ⟨fun s w raw => ⟨_, (filterStep_iff 3 raw _ _).mpr rfl, rfl, rfl⟩, fun s c raw =>
    ⟨_, (filterStep_iff 3 raw _ _).mpr rfl, ?_⟩⟩
  intro run subscribed i isInput
  have ran : exec i s = .next (s.runCap c raw) := by
    obtain rfl | later := List.mem_cons.mp isInput
    · rfl
    · obtain rfl := List.mem_singleton.mp later
      rfl
  refine ⟨fun kept => ran.trans (congrArg _ (runCap_of_kept kept)), fun edge => ?_⟩
  have subscribers : (fun q => edgeNamed ((run.port q).capSubs.get c) (isHigh raw)) = subscribed := funext fun q => edgeNamed_eq _ raw
  rw [ran, runCap_of_edge edge, State.edgeCapture, subscribers, isHigh_eq]

end Sys2Proof.Machine
end

section
/-! PROOFS. Fields as bytes: numbers most significant byte first and two's complement (Table 10.3), enumerated values (Table
10.4), the argument bytes of the commands with fields (R173), and the records and notice bodies laid out by them. -/

namespace Sys2Proof.Machine

/-! ### Numbers as bytes (Table 10.3) -/

theorem beBytes_length (w n : Nat) : (beBytes w n).length = w := by
  induction w with
  | zero => rfl
  | succ w ih => rw [beBytes, List.length_cons, ih]

theorem beBytes_getElem? (w n : Nat) {i : Nat} (h : i < w) :
    (beBytes w n)[i]? = some (BitVec.ofNat 8 (n / 256 ^ (w - 1 - i))) := by
  induction w generalizing i with
  | zero => omega
  | succ w ih =>
    rw [beBytes]
    cases i with
    | zero => rfl
    | succ i =>
      have same : w + 1 - 1 - (i + 1) = w - 1 - i := by omega
      rw [List.getElem?_cons_succ, ih (by omega), same]

/-- A number whose last byte is split off. -/
theorem beBytes_concat (w n : Nat) : beBytes (w + 1) n = beBytes w (n / 256) ++ [BitVec.ofNat 8 n] := by
  induction w with
  | zero => simp [beBytes]
  | succ w ih =>
    rw [beBytes, ih, beBytes, List.cons_append, Nat.div_div_eq_div_mul, Nat.pow_succ']

theorem beNat_concat (bs : List Byte) (b : Byte) : beNat (bs ++ [b]) = beNat bs * 256 + b.toNat := by
  rw [beNat, List.foldl_append]
  rfl

theorem beNat_lt (bs : List Byte) : beNat bs < 256 ^ bs.length := by
  induction bs using List.reverseRecOn with
  | nil => decide
  | append_singleton bs b ih =>
    have := b.isLt
    rw [beNat_concat, List.length_append, List.length_singleton, Nat.pow_succ]
    omega

theorem beNat_beBytes (w : Nat) {n : Nat} (h : n < 256 ^ w) : beNat (beBytes w n) = n := by
  induction w generalizing n with
  | zero =>
    rw [Nat.pow_zero, Nat.lt_one_iff] at h
    rw [h]
    rfl
  | succ w ih =>
    rw [Nat.pow_succ] at h
    rw [beBytes_concat, beNat_concat, ih (by omega), BitVec.toNat_ofNat]
    omega

theorem beBytes_beNat (bs : List Byte) : beBytes bs.length (beNat bs) = bs := by
  induction bs using List.reverseRecOn with
  | nil => rfl
  | append_singleton bs b ih =>
    have := b.isLt
    have front : (beNat bs * 256 + b.toNat) / 256 = beNat bs := by omega
    have last : BitVec.ofNat 8 (beNat bs * 256 + b.toNat) = b := by
      apply BitVec.eq_of_toNat_eq
      rw [BitVec.toNat_ofNat]
      omega
    rw [List.length_append, List.length_singleton, beBytes_concat, beNat_concat, front, ih, last]

/-- An unsigned field is read as a number exactly when it is that number's encoding. -/
theorem beNat_eq_iff {bs : List Byte} {w n : Nat} (len : bs.length = w) : beNat bs = n ↔ n < 256 ^ w ∧ bs = beBytes w n := by
  subst len
  constructor
  · rintro rfl
    exact ⟨beNat_lt bs, (beBytes_beNat bs).symm⟩
  · rintro ⟨small, bytes⟩
    rw [bytes, beNat_beBytes _ small]

/-- A two's complement field is read as a number exactly when it is that number's encoding. -/
theorem beInt_eq_iff {bs : List Byte} {w : Nat} {i : Int} (len : bs.length = w + 1) :
    beInt bs = i ↔ -(128 * 256 ^ w : Nat) ≤ i ∧ i < (128 * 256 ^ w : Nat) ∧ bs = beSigned (w + 1) i := by
  have range : 256 ^ (w + 1) = 128 * 256 ^ w * 2 := by ring
  have pos : 0 < 128 * 256 ^ w := by positivity
  have small := beNat_lt bs
  rw [len, range] at small
  have residue : bs = beSigned (w + 1) i ↔ (beNat bs : Int) = i % (128 * 256 ^ w * 2 : Nat) := by
    have reduced := Int.emod_lt_of_pos i (b := ((128 * 256 ^ w * 2 : Nat) : Int)) (by omega)
    have nonneg := Int.emod_nonneg i (b := ((128 * 256 ^ w * 2 : Nat) : Int)) (by omega)
    have encoded := beNat_eq_iff (n := (i % (256 ^ (w + 1) : Nat)).toNat) len
    rw [beSigned]
    rw [range] at encoded ⊢
    constructor
    · intro bytes
      have := encoded.mpr ⟨by omega, bytes⟩
      omega
    · intro value
      exact (encoded.mp (by omega)).2
  rw [residue, beInt, len, range]
  generalize 128 * 256 ^ w = half at *
  by_cases low : 0 ≤ i
  · constructor
    · intro value
      have small' : i < half := by split at value <;> omega
      rw [Int.emod_eq_of_lt low (by omega)]
      split at value <;> omega
    · rintro ⟨-, below, value⟩
      rw [Int.emod_eq_of_lt low (by omega)] at value
      split <;> omega
  · constructor
    · intro value
      have small' : -(half : Int) ≤ i := by split at value <;> omega
      rw [← Int.add_emod_right, Int.emod_eq_of_lt (by omega) (by omega)]
      split at value <;> omega
    · rintro ⟨above, -, value⟩
      rw [← Int.add_emod_right, Int.emod_eq_of_lt (by omega) (by omega)] at value
      split <;> omega

/-! ### Enumerated values (Table 10.4) -/

/-- An enumerated byte is read as a value exactly when it is that value's number, the values standing in their order. -/
theorem enumOfByte_eq_some {α : Type} {values : List α} {code : α → Byte}
    (ordered : values.map (fun x => (code x).toNat) = List.range values.length) (complete : ∀ x, x ∈ values) {b : Byte} {x : α} : enumOfByte values b = some x ↔ b = code x := by
  have place {n : Nat} {y : α} (here : values[n]? = some y) : n = (code y).toNat := by
    have mapped : (values.map (fun x => (code x).toNat))[n]? = some (code y).toNat := by rw [List.getElem?_map, here]; rfl
    have short := (List.getElem?_eq_some_iff.mp here).1
    rw [ordered, List.getElem?_range short] at mapped
    exact Option.some.inj mapped
  constructor
  · intro read
    exact BitVec.eq_of_toNat_eq (place read)
  · rintro rfl
    obtain ⟨n, short, here⟩ := List.getElem_of_mem (complete x)
    have found : values[n]? = some x := List.getElem?_eq_some_iff.mpr ⟨short, here⟩
    rw [enumOfByte, ← place found, found]

theorem modeOfByte_eq_some {b : Byte} {m : Mode} : modeOfByte b = some m ↔ b = modeByte m :=
  enumOfByte_eq_some rfl (fun m => by cases m <;> decide)

theorem windowOfByte_eq_some {b : Byte} {w : QuietWindow} : windowOfByte b = some w ↔ b = windowByte w :=
  enumOfByte_eq_some rfl (fun w => by cases w <;> decide)

theorem policyOfByte_eq_some {b : Byte} {d : DirPolicy} : policyOfByte b = some d ↔ b = policyByte d :=
  enumOfByte_eq_some rfl (fun d => by cases d <;> decide)

theorem polarityOfByte_eq_some {b : Byte} {x : Polarity} : polarityOfByte b = some x ↔ b = polarityByte x :=
  enumOfByte_eq_some rfl (fun x => by cases x <;> decide)

theorem correctionOfByte_eq_some {b : Byte} {x : Correction} : correctionOfByte b = some x ↔ b = correctionByte x :=
  enumOfByte_eq_some rfl (fun x => by cases x <;> decide)

theorem qualifierOfByte_eq_some {b : Byte} {q : Qualifier} : qualifierOfByte b = some q ↔ b = qualifierByte q :=
  enumOfByte_eq_some rfl (fun q => by cases q <;> decide)

theorem levelOfByte_eq_some {b : Byte} {l : Level} : levelOfByte b = some l ↔ b = byte (levelCode l) :=
  enumOfByte_eq_some (code := fun l => byte (levelCode l)) rfl (fun l => by cases l <;> decide)

theorem yesNoOfByte_eq_some {b : Byte} {x : Bool} : yesNoOfByte b = some x ↔ b = yesNoByte x :=
  enumOfByte_eq_some rfl (fun x => by cases x <;> decide)

theorem edgesOfByte_eq_some {b : Byte} {e : Edges} : edgesOfByte b = some e ↔ b = edgesByte e :=
  enumOfByte_eq_some rfl (fun e => by cases e <;> decide)

theorem capOfByte_eq_some {b : Byte} {c : CapId} : capOfByte b = some c ↔ b = byte c.1 :=
  enumOfByte_eq_some (code := fun c : CapId => byte c.1) rfl (fun c => by revert c; decide)

/-- The number of a booked action (Table 10.4). -/
def actionCode : ActionKind → Nat
  | .noticeOnly => 0
  | .pulse => 1
  | .setActive => 2
  | .setIdle => 3
  | .toggle => 4
  | .capture => 5

theorem actionOfByte_eq_some {b : Byte} {k : ActionKind} : actionOfByte b = some k ↔ b = byte (actionCode k) :=
  enumOfByte_eq_some (code := fun k => byte (actionCode k)) rfl (fun k => by cases k <;> decide)

/-- The number of a drive (Table 10.4). -/
def driveCode : Drive → Nat
  | .active => 0
  | .idle => 1
  | .pulse => 2

theorem driveOfByte_eq_some {b : Byte} {d : Drive} : driveOfByte b = some d ↔ b = byte (driveCode d) :=
  enumOfByte_eq_some (code := fun d => byte (driveCode d)) rfl (fun d => by cases d <;> decide)

theorem byte_eq_iff {b : Byte} {n : Nat} (small : n < 256) : b = byte n ↔ b.toNat = n := by
  rw [← BitVec.toNat_inj, byte, BitVec.toNat_ofNat, Nat.mod_eq_of_lt small]

theorem axisOfByte_eq_some {b : Byte} {a : AxisId} : axisOfByte b = some a ↔ b = byte a.1 := by
  rw [byte_eq_iff (by omega), axisOfByte]
  split
  next => rw [Option.some.injEq, Fin.ext_iff]
  next high =>
    simp only [reduceCtorEq, false_iff]
    omega

theorem lineOfByte_eq_some {b : Byte} {l : LineId} : lineOfByte b = some l ↔ b = byte l.1 := by
  rw [byte_eq_iff (by omega), lineOfByte]
  split
  next => rw [Option.some.injEq, Fin.ext_iff]
  next high =>
    simp only [reduceCtorEq, false_iff]
    omega

theorem subjectOfByte_eq_some {b : Byte} {subj : Subject} : subjectOfByte b = some subj ↔ b = subjectByte subj := by
  cases subj with
  | axis a =>
    rw [subjectByte, byte_eq_iff (by omega), subjectOfByte]
    have := a.isLt
    split
    next => rw [Option.some.injEq, Subject.axis.injEq, Fin.ext_iff]
    next high =>
      split
      · simp only [Option.some.injEq, reduceCtorEq, false_iff]
        omega
      · simp only [reduceCtorEq, false_iff]
        omega
  | line l =>
    rw [subjectByte, byte_eq_iff (by omega), subjectOfByte]
    have := l.isLt
    split
    next =>
      simp only [Option.some.injEq, reduceCtorEq, false_iff]
      omega
    next high =>
      split
      · rw [Option.some.injEq, Subject.line.injEq, Fin.ext_iff]
        change b.toNat - 16 = l.1 ↔ _
        omega
      · simp only [reduceCtorEq, false_iff]
        omega

theorem portMaskOfByte_eq_some {b : Byte} {m : PortMask} : portMaskOfByte b = some m ↔ b = maskByte m := by
  have := m.isLt
  rw [maskByte, byte_eq_iff (by omega), portMaskOfByte]
  split
  next low => rw [Option.some.injEq, ← BitVec.toNat_inj, BitVec.toNat_ofNat, Nat.mod_eq_of_lt low]
  next high =>
    simp only [reduceCtorEq, false_iff]
    omega

theorem subscriptionOfBytes_eq_some {hi lo : Byte} {m : BitVec 12} :
    subscriptionOfBytes hi lo = some m ↔ [hi, lo] = beBytes 2 m.toNat := by
  have := m.isLt
  have encoded : beNat [hi, lo] = m.toNat ↔ _ := beNat_eq_iff (w := 2) rfl
  rw [← (and_iff_right (show m.toNat < 256 ^ 2 by omega) : _ ↔ [hi, lo] = beBytes 2 m.toNat), ← encoded, subscriptionOfBytes]
  split
  next low => rw [Option.some.injEq, ← BitVec.toNat_inj, BitVec.toNat_ofNat, Nat.mod_eq_of_lt low]
  next high =>
    simp only [reduceCtorEq, false_iff]
    omega

/-! ### Argument bytes (R173) -/

/-- A field of two bytes. -/
theorem beNat_two_eq_iff {x y : Byte} {n : Nat} : beNat [x, y] = n ↔ n < 65536 ∧ [x, y] = beBytes 2 n := beNat_eq_iff (w := 2) rfl

/-- A field of three bytes. -/
theorem beNat_three_eq_iff {x y z : Byte} {n : Nat} : beNat [x, y, z] = n ↔ n < 16777216 ∧ [x, y, z] = beBytes 3 n :=
  beNat_eq_iff (w := 3) rfl

/-- A signed field of three bytes. -/
theorem beInt_three_eq_iff {x y z : Byte} {i : Int} :
    beInt [x, y, z] = i ↔ (-8388608 ≤ i ∧ i ≤ 8388607) ∧ [x, y, z] = beSigned 3 i := by
  rw [beInt_eq_iff (w := 2) rfl, ← and_assoc]
  refine and_congr_left fun _ => ?_
  omega

/-- A signed field of four bytes. -/
theorem beInt_four_eq_iff {w x y z : Byte} {i : Int} :
    beInt [w, x, y, z] = i ↔ (-2147483648 ≤ i ∧ i ≤ 2147483647) ∧ [w, x, y, z] = beSigned 4 i := by
  rw [beInt_eq_iff (w := 3) rfl, ← and_assoc]
  refine and_congr_left fun _ => ?_
  omega

/-- A field of one byte that takes every value. -/
theorem toNat_eq_iff {b : Byte} {n : Nat} : b.toNat = n ↔ n < 256 ∧ b = byte n := by
  constructor
  · rintro rfl
    exact ⟨b.isLt, (byte_eq_iff b.isLt).mpr rfl⟩
  · rintro ⟨small, rfl⟩
    exact (byte_eq_iff small).mp rfl

theorem parseConfig_eq_some {args : List Byte} {a : AxisId} {c : AxisConfig} : parseConfig args = some (a, c) ↔
    c.cpr < 16777216 ∧ c.divider < 256 ∧ c.depth < 256 ∧ c.tolerance < 256 ∧ c.stallMs < 65536
      ∧ args = [byte a.1] ++ [modeByte c.mode] ++ beBytes 3 c.cpr ++ [byte c.divider] ++ [byte c.depth] ++ [windowByte c.window]
        ++ [policyByte c.policy] ++ [polarityByte c.polarity] ++ [byte c.tolerance] ++ [correctionByte c.correction]
        ++ beBytes 2 c.stallMs := by
  obtain ⟨mode, cpr, divider, depth, window, policy, polarity, tolerance, correction, stallMs⟩ := c
  unfold parseConfig
  split
  next =>
    simp only [Option.bind_eq_bind, Option.bind_eq_some_iff, Option.some.injEq, Prod.mk.injEq, AxisConfig.mk.injEq,
      axisOfByte_eq_some, modeOfByte_eq_some, windowOfByte_eq_some, policyOfByte_eq_some, polarityOfByte_eq_some,
      correctionOfByte_eq_some, beNat_three_eq_iff, beNat_two_eq_iff, toNat_eq_iff, beBytes, List.cons_append,
      List.nil_append, List.cons.injEq]
    grind
  next other =>
    simp only [reduceCtorEq, false_iff]
    rintro ⟨-, -, -, -, -, bytes⟩
    exact other _ _ _ _ _ _ _ _ _ _ _ _ _ _ bytes

theorem parseArm_eq_some {args : List Byte} {a : AxisId} {o : Nat} {n : Int} : parseArm args = some (a, o, n) ↔
    o < 16777216 ∧ (-8388608 ≤ n ∧ n ≤ 8388607) ∧ args = [byte a.1] ++ beBytes 3 o ++ beSigned 3 n := by
  unfold parseArm
  split
  next =>
    simp only [Option.bind_eq_bind, Option.bind_eq_some_iff, Option.some.injEq, Prod.mk.injEq, axisOfByte_eq_some,
      beNat_three_eq_iff, beInt_three_eq_iff, beSigned, beBytes, List.cons_append, List.nil_append, List.cons.injEq]
    grind
  next other =>
    simp only [reduceCtorEq, false_iff]
    rintro ⟨-, -, bytes⟩
    exact other _ _ _ _ _ _ _ bytes

theorem parseSetReference_eq_some {args : List Byte} {a : AxisId} {q : Position} : parseSetReference args = some (a, q) ↔
    q.count < 16777216 ∧ (-8388608 ≤ q.turns ∧ q.turns ≤ 8388607)
      ∧ args = [byte a.1] ++ beSigned 3 q.turns ++ beBytes 3 q.count := by
  obtain ⟨turns, count⟩ := q
  unfold parseSetReference
  split
  next =>
    simp only [Option.bind_eq_bind, Option.bind_eq_some_iff, Option.some.injEq, Prod.mk.injEq, Position.mk.injEq, axisOfByte_eq_some,
      beNat_three_eq_iff, beInt_three_eq_iff, beSigned, beBytes, List.cons_append, List.nil_append, List.cons.injEq]
    grind
  next other =>
    simp only [reduceCtorEq, false_iff]
    rintro ⟨-, -, bytes⟩
    exact other _ _ _ _ _ _ _ bytes

/-- Three bytes of CLAIM name an axis (R66). -/
theorem parseClaim_three {x h l : Byte} {r : Subject × Nat × Level} :
    parseClaim [x, h, l] = some r ↔ ∃ a, x = subjectByte (.axis a) ∧ (.axis a, beNat [h, l], .low) = r := by
  simp only [← subjectOfByte_eq_some, parseClaim]
  split
  next a axis => simp [axis]
  next other => simpa using fun a axis => absurd axis (other a)

/-- Four bytes of CLAIM name a line and its idle level (R66). -/
theorem parseClaim_four {x h l i : Byte} {r : Subject × Nat × Level} :
    parseClaim [x, h, l, i] = some r
      ↔ ∃ k lev, x = subjectByte (.line k) ∧ i = byte (levelCode lev) ∧ (.line k, beNat [h, l], lev) = r := by
  simp only [← subjectOfByte_eq_some, ← levelOfByte_eq_some, parseClaim]
  split
  next k lev line level => simp [line, level]
  next other => simpa using fun k line lev level => absurd level (other k lev line)

theorem parseClaim_axis_eq_some {args : List Byte} {a : AxisId} {lease : Nat} {idle : Level} :
    parseClaim args = some (.axis a, lease, idle) ↔ lease < 65536 ∧ idle = .low ∧ args = [byte a.1] ++ beBytes 2 lease := by
  match args with
  | [x, h, l] =>
    rw [parseClaim_three]
    simp only [Prod.mk.injEq, Subject.axis.injEq, beNat_two_eq_iff, subjectByte, beBytes, List.cons_append, List.nil_append,
      List.cons.injEq]
    grind
  | [x, h, l, i] =>
    rw [parseClaim_four]
    simp [beBytes]
  | [] | [_] | [_, _] | _ :: _ :: _ :: _ :: _ :: _ => simp [parseClaim, beBytes]

theorem parseClaim_line_eq_some {args : List Byte} {l : LineId} {lease : Nat} {idle : Level} :
    parseClaim args = some (.line l, lease, idle)
      ↔ lease < 65536 ∧ args = [byte (0x10 + l.1)] ++ beBytes 2 lease ++ [byte (levelCode idle)] := by
  match args with
  | [x, h, i] =>
    rw [parseClaim_three]
    simp [beBytes]
  | [x, h, k, i] =>
    rw [parseClaim_four]
    simp only [Prod.mk.injEq, Subject.line.injEq, beNat_two_eq_iff, subjectByte, beBytes, List.cons_append, List.nil_append,
      List.cons.injEq]
    grind
  | [] | [_] | [_, _] | _ :: _ :: _ :: _ :: _ :: _ => simp [parseClaim, beBytes]

theorem parseSubject_eq_some {args : List Byte} {subj : Subject} : parseSubject args = some subj ↔ args = [subjectByte subj] := by
  unfold parseSubject
  split
  next => rw [subjectOfByte_eq_some, List.cons.injEq, and_iff_left rfl]
  next other =>
    simp only [reduceCtorEq, false_iff]
    exact other _

theorem parseBook_eq_some {args : List Byte} {b : BookArgs} : parseBook args = some b ↔
    b.target.count < 16777216 ∧ (-8388608 ≤ b.target.turns ∧ b.target.turns ≤ 8388607) ∧ b.width < 65536
      ∧ -2147483648 ≤ b.interval ∧ b.interval ≤ 2147483647 ∧ b.repeats < 65536
      ∧ args = [byte b.axis.1] ++ beSigned 3 b.target.turns ++ beBytes 3 b.target.count ++ [qualifierByte b.qual]
        ++ [byte (actionCode b.action)] ++ [byte b.line.1] ++ beBytes 2 b.width ++ [maskByte b.share] ++ [yesNoByte b.notify]
        ++ beSigned 4 b.interval ++ beBytes 2 b.repeats := by
  obtain ⟨axis, ⟨turns, count⟩, qual, action, line, width, share, notify, interval, repeats⟩ := b
  unfold parseBook
  split
  next =>
    simp only [Option.bind_eq_bind, Option.bind_eq_some_iff, Option.some.injEq, BookArgs.mk.injEq, Position.mk.injEq,
      axisOfByte_eq_some, qualifierOfByte_eq_some, actionOfByte_eq_some, lineOfByte_eq_some, portMaskOfByte_eq_some,
      yesNoOfByte_eq_some, beNat_three_eq_iff, beInt_three_eq_iff, beInt_four_eq_iff, beNat_two_eq_iff, beSigned, beBytes,
      List.cons_append, List.nil_append, List.cons.injEq]
    grind
  next other =>
    simp only [reduceCtorEq, false_iff]
    rintro ⟨-, -, -, -, -, -, bytes⟩
    exact other _ _ _ _ _ _ _ _ _ _ _ _ _ _ _ _ _ _ _ _ bytes

theorem parseDrive_eq_some {args : List Byte} {l : LineId} {d : Drive} {w : Nat} : parseDrive args = some (l, d, w) ↔
    w < 65536 ∧ args = [byte l.1] ++ [byte (driveCode d)] ++ beBytes 2 w := by
  unfold parseDrive
  split
  next =>
    simp only [Option.bind_eq_bind, Option.bind_eq_some_iff, Option.some.injEq, Prod.mk.injEq, lineOfByte_eq_some,
      driveOfByte_eq_some, beNat_two_eq_iff, beBytes, List.cons_append, List.nil_append, List.cons.injEq]
    grind
  next other =>
    simp only [reduceCtorEq, false_iff]
    rintro ⟨-, bytes⟩
    exact other _ _ _ _ bytes

theorem parseSnap_eq_some {args : List Byte} {m : PortMask} : parseSnap args = some m ↔ args = [maskByte m] := by
  unfold parseSnap
  split
  next => rw [portMaskOfByte_eq_some, List.cons.injEq, and_iff_left rfl]
  next other =>
    simp only [reduceCtorEq, false_iff]
    exact other _

theorem parseSubscribe_eq_some {args : List Byte} {m : BitVec 12} : parseSubscribe args = some m ↔ args = beBytes 2 m.toNat := by
  unfold parseSubscribe
  split
  next => exact subscriptionOfBytes_eq_some
  next other =>
    simp only [reduceCtorEq, false_iff]
    exact other _ _

theorem parseCaptureSub_eq_some {args : List Byte} {c : CapId} {e : Edges} :
    parseCaptureSub args = some (c, e) ↔ args = [byte c.1] ++ [edgesByte e] := by
  unfold parseCaptureSub
  split
  next =>
    simp only [Option.bind_eq_bind, Option.bind_eq_some_iff, Option.some.injEq, Prod.mk.injEq, capOfByte_eq_some,
      edgesOfByte_eq_some, List.cons_append, List.nil_append, List.cons.injEq]
    grind
  next other =>
    simp only [reduceCtorEq, false_iff]
    exact other _ _

/-- Settles O48: each command's form field by field, from the widths of its numbers and the lists of its enumerated values. -/
theorem argumentsAreReadByTheirForms : Obligations.ArgumentsAreReadByTheirForms := by
  unfold Obligations.ArgumentsAreReadByTheirForms
  refine ⟨fun _ _ _ => parseConfig_eq_some, fun _ _ _ _ => parseArm_eq_some, fun _ _ _ => parseSetReference_eq_some,
    fun _ _ _ _ => parseClaim_axis_eq_some, fun _ _ _ _ => parseClaim_line_eq_some, fun _ _ => parseSubject_eq_some,
    fun _ b => ?_, fun _ l d w => ?_, fun _ _ => parseSnap_eq_some, fun _ _ => parseSubscribe_eq_some,
    fun _ _ _ => parseCaptureSub_eq_some⟩
  · have action : byte (actionCode b.action) = BitVec.ofNat 8 (match b.action with
        | .noticeOnly => 0
        | .pulse => 1
        | .setActive => 2
        | .setIdle => 3
        | .toggle => 4
        | .capture => 5) := by cases b.action <;> rfl
    have notify : yesNoByte b.notify = BitVec.ofNat 8 (if b.notify then 1 else 0) := by cases b.notify <;> rfl
    rw [parseBook_eq_some, action, notify]
    rfl
  · rw [parseDrive_eq_some]
    cases d <;> rfl

/-- Settles O46: the bytes of a number by place; the enumerated values by evaluation. -/
theorem fieldsAreEncodedByTheirTables : Obligations.FieldsAreEncodedByTheirTables := by
  unfold Obligations.FieldsAreEncodedByTheirTables
  refine ⟨fun w n => ⟨beBytes_length w n, fun i => beBytes_getElem? w n⟩, fun w i => rfl, rfl, rfl, rfl, rfl, rfl, rfl, rfl, rfl,
    rfl, rfl, rfl, fun _ _ _ => rfl, rfl, rfl, rfl, rfl, rfl, fun _ => rfl, rfl, fun _ _ => rfl, fun _ => rfl, fun _ => rfl⟩

/-! ### Records and notices (Tables 10.10 to 10.15) -/

/-- Settles O47: each record is the same concatenation, bracketed differently. -/
theorem recordsAreLaidOutByTheirTables : Obligations.RecordsAreLaidOutByTheirTables := by
  unfold Obligations.RecordsAreLaidOutByTheirTables
  intro bit optional at' one holder
  have isOne : one = fun n => [byte n] := rfl
  have isBit : bit = flagBit := rfl
  have isAt : at' = positionBytes := rfl
  have isHolder : holder = holderCode := by
    funext o
    cases o <;> rfl
  have isOptional : @optional = fun α o f => optBytes f o := by
    funext α o f
    cases o <;> rfl
  clear_value one bit at' holder optional
  subst isOne isBit isAt isHolder isOptional
  have yesNo (b : Bool) : yesNoByte b = byte (flagBit 1 b) := by cases b <;> rfl
  refine ⟨fun now a r => ?_, fun h e => ?_, fun p x => ?_, fun s => ?_, fun s l => ?_, fun _ _ _ _ _ => ?_, fun _ _ => rfl,
    fun _ _ _ => rfl, fun _ _ => rfl, fun _ _ => rfl, fun _ => rfl, fun _ _ _ => rfl, fun _ _ => rfl, fun _ _ => rfl⟩
  · have time : timeBytes = fun t => beBytes 6 t.toNat := rfl
    have first : firstFaultBytes = fun x => [byte (faultBit x.1)] ++ beBytes 6 x.2.toNat := rfl
    -- `delta`: the equation lemma of this long concatenation takes ten seconds to generate.
    delta axisRecordBytes
    rw [first, time]
    simp only [configBytes, List.append_assoc, List.cons_append, List.nil_append]
  · intro line width share
    have hLine : line = e.action.line? := by cases h : e.action <;> simp [line, h, EntryAction.line?]
    have hWidth : width = e.action.width? := by cases h : e.action <;> simp [width, h, EntryAction.width?]
    have hShare : share = e.action.share? := by cases h : e.action <;> simp [share, h, EntryAction.share?]
    rw [hLine, hWidth, hShare]
    simp only [entryRecordBytes, handleBytes, yesNo, List.append_assoc, List.cons_append, List.nil_append]
    rfl
  · intro handle part
    have shown : handle = shownHandle p x.cause := by cases h : x.cause <;> simp [handle, h, shownHandle]
    have isPart : part = axisPartBytes := by
      funext y
      simp only [part, axisPartBytes, List.append_assoc, List.cons_append, List.nil_append]
      rfl
    have each : (List.finRange 4).flatMap (fun a => optBytes axisPartBytes (x.parts.get a))
        = optBytes axisPartBytes (x.parts.get 0) ++ (optBytes axisPartBytes (x.parts.get 1)
          ++ (optBytes axisPartBytes (x.parts.get 2) ++ optBytes axisPartBytes (x.parts.get 3))) := by
      simp [List.finRange_succ]
    rw [isPart, shown]
    simp only [snapshotBytes, each, timeBytes, List.append_assoc, List.cons_append, List.nil_append]
    rfl
  · intro claim
    have record (subj : Subject) : claimRecordBytes s.time (s.claim subj) = claim subj := by
      simp only [claimRecordBytes, claim, isHigh_eq]
      by_cases absent : (s.claim subj).holder = none ∨ (s.claim subj).lease = 0
      · have present : ¬ ((s.claim subj).holder.isSome ∧ (s.claim subj).lease ≠ 0) := by
          rintro ⟨held, lease⟩
          exact absent.elim (fun free => by simp [free] at held) lease
        rw [if_pos absent, if_neg present]
        rfl
      · have present : (s.claim subj).holder.isSome ∧ (s.claim subj).lease ≠ 0 := by
          rw [not_or] at absent
          exact ⟨Option.isSome_iff_ne_none.mpr absent.1, absent.2⟩
        rw [if_neg absent, if_pos present]
        rfl
    have twelve : allSubjects = [.axis 0, .axis 1, .axis 2, .axis 3, .line 0, .line 1, .line 2, .line 3, .line 4, .line 5, .line 6,
        .line 7] := by decide
    simp only [State.claimRecords, record, twelve, List.flatMap_cons, List.flatMap_nil, List.append_assoc, List.append_nil]
  · simp only [State.lineRecordBytes, isHigh_eq]
    rfl
  · simp only [noticeBody, noticeFields, handleBytes, yesNo, List.cons_append, List.nil_append]
    rfl

end Sys2Proof.Machine
end

section
/-! PROOFS. Frames on the wire: device frames with their CRC-8 and their bits on SDO (R141, R174, R175), the judging of the
bytes received (R149), and request frames read back. -/

namespace Sys2Proof.Machine

/-! ### Device frames (R141, R174, R175) -/

theorem crc8_concat (bs : List Byte) (b : Byte) : crc8 (bs ++ [b]) = crcByte (crc8 bs) b := by
  rw [crc8, List.foldl_append]
  rfl

theorem sdoBit_of_active {r : PortRec} {f : DeviceFrame} {voided : Bool} (active : r.exchange = .active f voided) (k : Nat) :
    r.sdoBit k = some ((f.bytes.getD (k / 8) 0xFF#8).getLsbD (7 - k % 8)) := by
  rw [PortRec.sdoBit, active]

/-- Settles O41: layout and CRC by their definitions; a bit on SDO by whether its byte is in the frame. -/
theorem framesAreSentBitByBit : Obligations.FramesAreSentBitByBit := by
  unfold Obligations.FramesAreSentBitByBit
  refine ⟨fun f => ?_, rfl, crc8_concat, by decide +kernel, by decide +kernel,
    fun r k => ⟨fun f voided active => ?_, fun closed => ?_⟩⟩
  · cases h : f.kind <;> simp only [DeviceFrame.bytes, DeviceFrame.covered, h] <;> rfl
  · rw [sdoBit_of_active active]
    split
    next sent =>
      have inFrame : k / 8 < f.bytes.length := by omega
      rw [List.getD_eq_getElem _ _ inFrame, List.getD_eq_getElem _ _ inFrame]
    next filler =>
      have beyond : f.bytes.length ≤ k / 8 := by omega
      have ones : ∀ i < 8, (0xFF#8).getLsbD i = true := by decide
      rw [List.getD_eq_default _ _ beyond, ones _ (by omega)]
  · rw [PortRec.sdoBit]
    split
    next f voided active => exact absurd active (closed f voided)
    next => rfl

/-! ### The judging of the bytes received (R149) -/

/-- A length from 2 to 38 passes the first two steps of Table 8.2. -/
theorem judgeRequest_of_length {len : Byte} (least : 2 ≤ len.toNat) (most : len.toNat ≤ 38) (rest : List Byte) :
    judgeRequest (len :: rest)
      = if rest.length < len.toNat + 1 then .damaged .truncated 0
        else if crc8 (len :: rest.take len.toNat) ≠ rest.getD len.toNat 0 then .damaged .crc (rest.headD 0)
        else .request (rest.headD 0) (rest.getD 1 0) ((rest.take len.toNat).drop 2) := by
  have notZero : len ≠ 0 := by rintro rfl; simp at least
  have notOne : len ≠ 1 := by rintro rfl; simp at least
  rw [judgeRequest, if_neg notZero, if_neg (by simp only [notOne, false_or]; omega)]

/-- A frame of full length is judged by its CRC. -/
theorem judgeRequest_of_frame {len tag cmd crc : Byte} {args more : List Byte} (most : len.toNat ≤ 38)
    (size : args.length + 2 = len.toNat) :
    judgeRequest (len :: (tag :: cmd :: args ++ crc :: more))
      = if crc8 (len :: tag :: cmd :: args) ≠ crc then .damaged .crc tag else .request tag cmd args := by
  have covered : (tag :: cmd :: args ++ crc :: more).take len.toNat = tag :: cmd :: args := by
    rw [List.take_left' (by simpa using size)]
  have closing : (tag :: cmd :: args ++ crc :: more).getD len.toNat 0 = crc := by
    rw [List.getD_append_right _ _ _ _ (by simp; omega)]
    have place : len.toNat - (tag :: cmd :: args).length = 0 := by simp; omega
    rw [place]
    rfl
  rw [judgeRequest_of_length (by omega) most, if_neg (by simp; omega), covered, closing]
  rfl

/-- Settles O43: the steps of Table 8.2 in order. -/
theorem requestsAreJudgedByTable82 : Obligations.RequestsAreJudgedByTable82 := by
  unfold Obligations.RequestsAreJudgedByTable82
  refine ⟨rfl, fun len rest => ?_⟩
  intro n
  refine ⟨fun zero => ?_, fun length => ?_, fun least most short => ?_, fun tag cmd args more crc least most frame size => ?_⟩
  · have isZero : len = 0 := BitVec.eq_of_toNat_eq zero
    rw [judgeRequest, if_pos isZero]
  · have notZero : len ≠ 0 := by
      rintro rfl
      simp [n] at length
    have isOne : len = 1 ↔ n = 1 := ⟨fun h => congrArg BitVec.toNat h, fun h => BitVec.eq_of_toNat_eq h⟩
    rw [judgeRequest, if_neg notZero, if_pos (length.imp_left isOne.mpr)]
    rfl
  · rw [judgeRequest_of_length least most, if_pos (by simpa using short)]
    rfl
  · subst frame
    rw [judgeRequest_of_frame most size]
    exact ⟨fun wrong => if_pos wrong, fun right => if_neg (not_not.mpr right)⟩

/-! ### Request frames read back (R141, R149) -/

theorem byteOfBits_bitsOfByte (b : Byte) :
    byteOfBits (b.getLsbD 7) (b.getLsbD 6) (b.getLsbD 5) (b.getLsbD 4) (b.getLsbD 3) (b.getLsbD 2) (b.getLsbD 1) (b.getLsbD 0)
      = b := by
  revert b
  decide +kernel

theorem bytesOfBits_of_short {bits : List Bool} (short : bits.length < 8) : bytesOfBits bits = [] := by
  unfold bytesOfBits
  split
  next => simp at short; omega
  next => rfl

/-- The bits of a run of bytes, and a few more, are read back as those bytes. -/
theorem bytesOfBits_bitsOfBytes (bs : List Byte) {bits : List Bool} (short : bits.length < 8) :
    bytesOfBits (bitsOfBytes bs ++ bits) = bs := by
  induction bs with
  | nil => exact bytesOfBits_of_short short
  | cons b bs ih =>
    calc bytesOfBits (bitsOfBytes (b :: bs) ++ bits)
        = byteOfBits (b.getLsbD 7) (b.getLsbD 6) (b.getLsbD 5) (b.getLsbD 4) (b.getLsbD 3) (b.getLsbD 2) (b.getLsbD 1) (b.getLsbD 0)
          :: bytesOfBits (bitsOfBytes bs ++ bits) := rfl
      _ = b :: bs := by rw [byteOfBits_bitsOfByte, ih]

/-- Settles O44: the bits give the bytes back, and the bytes pass every step of Table 8.2. -/
theorem requestFramesReadBack : Obligations.RequestFramesReadBack := by
  unfold Obligations.RequestFramesReadBack
  intro tag cmd args filler bits few short
  have length : (BitVec.ofNat 8 (args.length + 2)).toNat = args.length + 2 := by
    rw [BitVec.toNat_ofNat]
    omega
  rw [bytesOfBits_bitsOfBytes _ short]
  have frame : requestFrame tag cmd args ++ filler = BitVec.ofNat 8 (args.length + 2) :: (tag :: cmd :: args
      ++ crc8 (BitVec.ofNat 8 (args.length + 2) :: tag :: cmd :: args) :: filler) := by simp [requestFrame]
  rw [frame, judgeRequest_of_frame (by omega) length.symm, if_neg (not_not.mpr rfl)]

end Sys2Proof.Machine
end

section
/-! PROOFS. Ports: the fall and the rise of CS_N (R142 to R150), requests taken from the head (R153), subscriptions (R122, R162),
the joining and merging of notices (R161 to R169); and the queue of commands with DEVICE_RESET (R22). -/

namespace Sys2Proof.Machine

variable {s : State} {p : PortId} {r : PortRec}

/-- A change of one port is known by what it makes of that port's record. -/
theorem modPort_congr {f g : PortRec → PortRec} (same : f (s.port p) = g (s.port p)) : s.modPort p f = s.modPort p g :=
  congrArg (fun r => ({ s with ports := upd s.ports p r } : State)) same

theorem modPort_eq_self {f : PortRec → PortRec} (same : f (s.port p) = s.port p) : s.modPort p f = s :=
  (congrArg (fun r => ({ s with ports := upd s.ports p r } : State)) same).trans
    (congrArg (fun x => ({ s with ports := x } : State)) (upd_self s.ports p))

/-! ### The fall of CS_N (R142, R160) -/

theorem fall_of_idle (idle : r.exchange = .idle) : r.fall = { r with exchange := .active r.select false, fresh := false } := by
  unfold PortRec.fall
  rw [idle]

theorem fall_of_low (low : r.exchange ≠ .idle) : r.fall = r := by
  unfold PortRec.fall
  split
  next idle => exact absurd idle low
  next => rfl

/-- The STATUS byte in numbers (Table 10.6). -/
theorem status_eq (r : PortRec) : r.status
    = BitVec.ofNat 8 ((8 - (r.requests.length + r.responses.length)) + (if r.notices = [] then 0 else 16)
      + (if r.dropped then 32 else 0) + (if r.resetSeen then 64 else 0)) := by
  have alert : flagBit 16 r.alert = if r.notices = [] then 0 else 16 := by
    cases h : r.notices <;> simp [flagBit, PortRec.alert, h]
  rw [PortRec.status, alert]
  rfl

/-- Where no response and no notice wait, the fall selects the IDLE frame; where a response waits, that response; no rule
disagrees. -/
theorem select_of_undisputed (undisputed : r.disputed = false) : r.select = r.queued := by
  rw [PortRec.select, undisputed]
  rfl

theorem queued_of_response {x : Response} {xs : List Response} (waits : r.responses = x :: xs) :
    r.queued = ⟨r.status, r.frameNo, .response, x.tag, x.body⟩ := by
  rw [PortRec.queued, waits]

theorem queued_of_notice {e : NoticeEntry} {es : List NoticeEntry} (noResponse : r.responses = []) (waits : r.notices = e :: es) :
    r.queued = ⟨r.status, r.frameNo, .notice, noticeKindByte e.notice.kind, noticeBody e.notice⟩ := by
  rw [PortRec.queued, noResponse, waits]

theorem queued_of_empty (responses : r.responses = []) (notices : r.notices = []) :
    r.queued = ⟨r.status, r.frameNo, .idle, 0#8, []⟩ := by
  rw [PortRec.queued, responses, notices]
  rfl

/-- Settles O40: by what waits in the queues; only a first fall with a notice waiting is disputed. -/
theorem fallSelectsTheFrame : Obligations.FallSelectsTheFrame := by
  unfold Obligations.FallSelectsTheFrame
  intro s p r status opens first told
  have isStatus : r.status = status := status_eq r
  have opened {f : DeviceFrame} (idle : r.exchange = .idle) (selected : r.select = f) : opens f := by
    refine congrArg Host.Outcome.next (modPort_congr ?_)
    rw [← selected]
    exact fall_of_idle idle
  have empty (responses : r.responses = []) (notices : r.notices = []) : r.select = ⟨status, r.frameNo, .idle, 0#8, []⟩ := by
    rw [select_of_undisputed (by simp [PortRec.disputed, PortRec.alert, notices]), queued_of_empty responses notices, isStatus]
  refine ⟨fun idle => ⟨fun x xs waits => opened idle ?_, fun e es responses waits => ⟨fun notFirst => opened idle ?_, fun isFirst =>
    opened idle ?_⟩, fun responses notices => opened idle (empty responses notices), fun law fresh notices => opened idle ?_⟩,
    fun low => congrArg Host.Outcome.next (modPort_eq_self (fall_of_low low))⟩
  · rw [select_of_undisputed (by simp [PortRec.disputed, waits]), queued_of_response waits, isStatus]
  · rw [select_of_undisputed (by simp [PortRec.disputed, notFirst]), queued_of_notice responses waits, isStatus]
  · have disputed : r.disputed = true := by simp [PortRec.disputed, PortRec.alert, isFirst, waits, responses]
    rw [PortRec.select, disputed, Bool.true_and, queued_of_notice responses waits, PortRec.firstIdle, isStatus]
    rfl
  · obtain ⟨requests, responses, number, -, dropped, seen, -⟩ := law fresh
    rw [empty responses notices, number]
    simp [first, status, requests, responses, notices, dropped, seen]

/-! ### The rise of CS_N (R145 to R150, R168) -/

/-- Judging the bytes received reads and writes the queues, not the exchange. -/
theorem judge_setExchange (r : PortRec) (received : List Byte) (x : Exchange) :
    { r.judge received with exchange := x } = ({ r with exchange := x } : PortRec).judge received := by
  have join (e : RequestEntry) : ({ r.joinRequest e with exchange := x } : PortRec)
      = ({ r with exchange := x } : PortRec).joinRequest e := by
    have room : ({ r with exchange := x } : PortRec).waiting = r.waiting := rfl
    rw [PortRec.joinRequest, PortRec.joinRequest, room]
    split <;> rfl
  unfold PortRec.judge
  split
  · rfl
  · exact join _
  · exact join _

theorem isDelivered_iff (f : DeviceFrame) (voided : Bool) (clocked : Nat) :
    isDelivered f voided clocked = true ↔ f.kind ≠ .idle ∧ voided = false ∧ f.body.length + 6 ≤ clocked := by
  have length : f.bytes.length = f.body.length + 6 := by simp [DeviceFrame.bytes, DeviceFrame.covered]
  simp [isDelivered, length, and_assoc]

/-- Settles O42: by whether the frame is delivered; then the bytes received are judged on the record that leaves. -/
theorem riseDeliversThenJudges : Obligations.RiseDeliversThenJudges := by
  unfold Obligations.RiseDeliversThenJudges
  intro s p sdi r
  refine ⟨fun idle => congrArg Host.Outcome.next (modPort_eq_self (rise_of_idle idle sdi)),
    fun waits => congrArg Host.Outcome.next (modPort_congr (rise_of_waitHigh waits sdi)), fun f voided active => ?_⟩
  intro bytes delivered repeated sent unsent joined judged
  have judges (u : PortRec) : u.judge bytes = judged u := by
    unfold PortRec.judge
    simp only [judged]
    cases judgeRequest bytes <;> rfl
  have rose (u : PortRec) (settled : ({ r.sent f voided bytes.length with exchange := .idle } : PortRec) = u) :
      exec (.csNRise p sdi) s = .next (s.modPort p (fun _ => judged u)) := by
    refine congrArg Host.Outcome.next (modPort_congr ?_)
    rw [← settled, ← judges, ← judge_setExchange]
    exact rise_of_active active sdi
  refine ⟨fun done => rose sent ?_, fun failed => rose unsent ?_⟩
  · have notices : settleDelivered r.notices = (match r.notices with
        | [] => []
        | ⟨_, none⟩ :: rest => rest
        | ⟨_, some n⟩ :: rest => rest ++ [⟨n, none⟩]) := by
      match r.notices with
      | [] => rfl
      | ⟨_, none⟩ :: _ => rfl
      | ⟨_, some _⟩ :: _ => rfl
    have kept : keptContent f (r.headRepeats f) = repeated.getD ⟨f.kind, f.tag, f.body⟩ := by
      change keptContent f repeated = _
      cases repeated <;> rfl
    rw [PortRec.sent, if_pos ((isDelivered_iff f voided bytes.length).mpr done), PortRec.deliver, notices, kept]
    rfl
  · have notices : settleUndelivered r.notices = (match r.notices with
        | ⟨m, some n⟩ :: rest => ⟨mergeNotice m n, none⟩ :: rest
        | other => other) := by
      match r.notices with
      | [] => rfl
      | ⟨_, none⟩ :: _ => rfl
      | ⟨_, some _⟩ :: _ => rfl
    rw [PortRec.sent, if_neg (mt (isDelivered_iff f voided bytes.length).mp failed), PortRec.undelivered]
    exact congrArg (fun l => ({ r with
      exchange := .idle
      notices := if f.kind = .notice ∧ voided = false then l else r.notices } : PortRec)) notices

/-! ### Subscriptions (R122, R162) -/

/-- Taking a request and a change of other fields of the port's record touch different parts of the state. -/
theorem popRequest_modPort (s : State) (p : PortId) {f : PortRec → PortRec}
    (other : ∀ r : PortRec, f { r with requests := r.requests.tail } = { f r with requests := (f r).requests.tail }) :
    (s.popRequest p).modPort p f = (s.modPort p f).popRequest p := by
  simp only [State.popRequest, modPort_modPort]
  exact modPort_congr (other _)

/-- Settles O38: the replacement touches other fields of the port's record than the taking of the request. -/
theorem subscriptionsAreReplaced : Obligations.SubscriptionsAreReplaced := by
  unfold Obligations.SubscriptionsAreReplaced
  refine fun s p tag args => ⟨fun asked => ⟨fun form => congrArg Host.Outcome.next (takeRequest_bad_form asked rfl form),
    fun m parsed => ?_⟩, fun asked => ⟨fun form => congrArg Host.Outcome.next (takeRequest_bad_form asked rfl form),
    fun c e parsed => ?_⟩⟩
  · refine congrArg Host.Outcome.next (takeRequest_answered asked rfl ?_)
    rw [subscribeReply, withArgs_of_parse parsed, popRequest_modPort s p (fun _ => rfl), parseSubscribe_eq_some.mp parsed]
    rfl
  · intro now
    have set : (s.popRequest p).setCaptureSub p c e = (s.modPort p (fun r => { r with capSubs := upd r.capSubs c e })).popRequest p :=
      popRequest_modPort s p (fun _ => rfl)
    have result : s.modPort p (fun r => { r with capSubs := upd r.capSubs c e }) = s.modPort p (fun r => { r with capSubs := now }) :=
      modPort_congr rfl
    refine congrArg Host.Outcome.next (takeRequest_answered asked rfl ?_)
    rw [subscribeCaptureReply, withArgs_of_parse parsed, set, result, popRequest_port_same, modPort_port_same]
    rfl

/-! ### Requests at the head of the queue (R153) -/

/-- The instruction that takes a request of a command (R153). -/
def requestInstr (p : PortId) (half : ClkPhase) : Cmd → Instr
  | .nop => .nop p
  | .portStatus => .portStatus p
  | .portReset => .portReset p
  | .repeatFrame => .repeatFrame p
  | .subscribe => .subscribe p
  | .readTime => .readTime p
  | .setAxisConfig => .setAxisConfig ⟨p, half⟩
  | .startAxis => .startAxis p
  | .stopAxis => .stopAxis p
  | .readAxis => .readAxis p
  | .clearFaults => .clearFaults p
  | .armReference => .armReference p
  | .setReference => .setReference p
  | .dropReference => .dropReference p
  | .claim => .claim p
  | .release => .release p
  | .readClaims => .readClaims p
  | .book => .book p
  | .cancel => .cancel p
  | .cancelAxis => .cancelAxis p
  | .readEntry => .readEntry p
  | .listEntries => .listEntries p
  | .driveLine => .driveLine p
  | .readLines => .readLines p
  | .snap => .snap p
  | .subscribeCapture => .subscribeCapture p
  | .readSnapshot => .readSnapshot p
  | .readOldest => .readOldest p
  | .releaseSnapshot => .releaseSnapshot p
  | .listHeld => .listHeld p

/-- Every such instruction is one taking of a request of its command. -/
theorem exec_requestInstr (s : State) (p : PortId) (half : ClkPhase) (c : Cmd) :
    ∃ act, exec (requestInstr p half c) s = .next (s.takeRequest p c act) := by
  cases c <;> exact ⟨_, rfl⟩

theorem mem_all (c : Cmd) : c ∈ Cmd.all := by cases c <;> decide

theorem ofCode_code (c : Cmd) : Cmd.ofCode c.code = some c := by cases c <;> rfl

theorem ofCode_eq_some_iff {b : Byte} {c : Cmd} : Cmd.ofCode b = some c ↔ c.code = b := by
  refine ⟨fun named => ?_, fun code => code ▸ ofCode_code c⟩
  simpa using List.find?_some named

theorem ofCode_eq_none_iff {b : Byte} : Cmd.ofCode b = none ↔ ∀ c : Cmd, c.code ≠ b := by
  rw [Option.eq_none_iff_forall_ne_some]
  exact forall_congr' fun c => not_congr ofCode_eq_some_iff

/-- The head of a request queue, as the commands and the statements read it. -/
theorem head_request_iff {tag cmd : Byte} {args : List Byte} :
    s.asks p cmd tag args ↔ ∃ rest, (s.port p).requests = .request tag cmd args :: rest := by
  unfold State.asks
  cases (s.port p).requests <;> simp

theorem exec_frameError_of_damaged {detail : FrameDetail} {tag : Byte}
    (head : (s.port p).requests.head? = some (.damaged detail tag)) :
    exec (.frameError p) s = .next (s.answered p tag [0x01#8, detailByte detail]) := by
  obtain ⟨rest, queue⟩ := List.head?_eq_some_iff.mp head
  refine congrArg Host.Outcome.next ?_
  simp only [queue]
  exact popRequest_pushResponse s p tag _

theorem exec_frameError_of_none (other : ∀ detail tag, (s.port p).requests.head? ≠ some (.damaged detail tag)) :
    exec (.frameError p) s = .next s := by
  refine congrArg Host.Outcome.next ?_
  split
  next detail tag rest queue => exact absurd (by rw [queue]; rfl) (other detail tag)
  next => rfl

theorem exec_unknownCommand_of_asks {tag cmd : Byte} {args : List Byte} (asked : s.asks p cmd tag args) :
    exec (.unknownCommand p) s = .next (if Cmd.ofCode cmd = none then s.answered p tag [0x02#8] else s) := by
  obtain ⟨rest, queue⟩ := head_request_iff.mp asked
  refine congrArg Host.Outcome.next ?_
  simp only [queue]
  split
  · exact popRequest_pushResponse s p tag _
  · rfl

theorem exec_unknownCommand_of_none (other : ∀ cmd tag args, ¬ s.asks p cmd tag args) : exec (.unknownCommand p) s = .next s := by
  refine congrArg Host.Outcome.next ?_
  split
  next tag cmd args rest queue => exact absurd (head_request_iff.mpr ⟨rest, queue⟩) (other cmd tag args)
  next => rfl

/-- Settles O45: the thirty commands are the listed ones with their codes; each takes a request of its own code alone. -/
theorem requestsAreTakenFromTheHead : Obligations.RequestsAreTakenFromTheHead := by
  unfold Obligations.RequestsAreTakenFromTheHead
  intro s p half commands
  have listed : commands = Cmd.all.map (fun c => (requestInstr p half c, c.code)) := rfl
  have named (cmd : Byte) : (∃ x ∈ commands, x.2 = cmd) ↔ ∃ c : Cmd, c.code = cmd := by
    simp [listed, mem_all]
  refine ⟨fun x isCommand notAsked => ?_, fun detail tag head => ?_, exec_frameError_of_none,
    fun cmd tag args asked => ⟨fun unknown => ?_, fun known => ?_⟩, exec_unknownCommand_of_none⟩
  · rw [listed] at isCommand
    obtain ⟨c, -, rfl⟩ := List.mem_map.mp isCommand
    obtain ⟨act, taken⟩ := exec_requestInstr s p half c
    rw [taken, takeRequest_of_not]
    intro cmd tag args code
    rw [← ofCode_eq_some_iff.mp code]
    exact notAsked tag args
  · rw [exec_frameError_of_damaged head]
    cases detail <;> rfl
  · rw [exec_unknownCommand_of_asks asked, if_pos]
    exact ofCode_eq_none_iff.mpr fun c code => by
      obtain ⟨x, isCommand, same⟩ := (named cmd).mpr ⟨c, code⟩
      exact unknown x isCommand same
  · obtain ⟨c, code⟩ := (named cmd).mp known
    rw [exec_unknownCommand_of_asks asked, if_neg fun unknown => ofCode_eq_none_iff.mp unknown c code]

/-! ### Notices (R161 to R169) -/

theorem enqueue_new (selected : Bool) {n : Notice} {l : List NoticeEntry} (new : ∀ e ∈ l, e.notice.key ≠ n.key) :
    enqueue selected n l = l ++ [⟨n, none⟩] := by
  induction l generalizing selected with
  | nil => rfl
  | cons e rest ih =>
    rw [enqueue, if_neg (new e (by simp)), ih false fun x listed => new x (by simp [listed])]
    rfl

/-- A notice of a kind and subject that waits merges into the first entry of them; only the head can be the selected frame. -/
theorem enqueue_waiting (selected : Bool) {n : Notice} {before after : List NoticeEntry} {e : NoticeEntry}
    (first : ∀ x ∈ before, x.notice.key ≠ n.key) (same : e.notice.key = n.key) :
    enqueue selected n (before ++ e :: after) = before ++ e.merge (before.isEmpty && selected) n :: after := by
  induction before generalizing selected with
  | nil => rw [List.nil_append, enqueue, if_pos same]; rfl
  | cons x rest ih =>
    rw [List.cons_append, enqueue, if_neg (first x (by simp)), ih false fun y listed => first y (by simp [listed])]
    simp

theorem noticeSelected_iff (r : PortRec) : r.noticeSelected = true ↔ ∃ f, r.exchange = .active f false ∧ f.kind = .notice := by
  unfold PortRec.noticeSelected
  cases h : r.exchange with
  | active f voided => cases voided <;> simp
  | _ => simp

/-- Settles O49: by whether an entry of its kind and subject waits; only the head can be the selected frame. -/
theorem noticesJoinOrMerge : Obligations.NoticesJoinOrMerge := by
  unfold Obligations.NoticesJoinOrMerge
  refine ⟨fun r => ?_, fun s bit n q => ?_, fun r n => ?_, fun _ _ _ _ _ _ _ _ _ => rfl, fun _ _ _ => rfl, fun _ _ _ _ _ => rfl,
    fun _ _ _ => rfl, fun _ _ _ => rfl, fun _ => rfl, fun _ _ _ _ _ => rfl, fun _ _ _ _ _ => rfl⟩
  · cases h : r.notices <;> simp [PortRec.alertN, PortRec.alert, h]
  · have hears : (s.port q).hears bit n = true
        ↔ (s.port q).subs.getLsbD bit = true ∨ ∃ e ∈ (s.port q).notices, e.notice.key = n.key := by
      simp [PortRec.hears, PortRec.awaits]
    rw [raiseSubscribed_eq, toldSubscribers_port]
    exact if_congr hears rfl rfl
  · intro selected
    have isSelected : r.noticeSelected = true ↔ selected := noticeSelected_iff r
    refine ⟨fun new => by rw [PortRec.accept, enqueue_new _ new], fun before e after queue first same => ?_⟩
    have merged : r.accept n = { r with notices := before ++ e.merge (before.isEmpty && r.noticeSelected) n :: after } := by
      rw [PortRec.accept, queue, enqueue_waiting _ first same]
    rw [merged]
    refine ⟨fun ⟨head, sending⟩ => ?_, fun other => ?_⟩
    · subst head
      rw [isSelected.mpr sending]
      rfl
    · have notHead : (before.isEmpty && r.noticeSelected) = false := by
        rw [Bool.eq_false_iff, Ne, Bool.and_eq_true, List.isEmpty_iff, isSelected]
        exact other
      rw [notHead]
      rfl

/-! ### The queue of commands and DEVICE_RESET (R22) -/

/-- Settles O1: by the definition of a step. -/
theorem stepTakesFrontCommand : Obligations.StepTakesFrontCommand := by
  refine ⟨fun c rest s => rfl, fun s idle => ?_⟩
  rw [step, idle]

/-- Settles O2: both states are the reset records, field by field. -/
theorem deviceResetLeavesResetValues : Obligations.DeviceResetLeavesResetValues := by
  unfold Obligations.DeviceResetLeavesResetValues
  intro s csLow resetTo
  refine ⟨?_, ?_⟩
  · rfl
  · rfl

end Sys2Proof.Machine
end
